-- ==== Sys2Proof/Word.lean ====
section
/-! DEFINITION. The word types of the block: command and result words are 32 bits (R100, R101, R108), memory and channel
values 8 bits (R8 CHAN_BITS, R58). -/

namespace Sys2Proof

/-- A command or result word (R100, R101). -/
abbrev Word := BitVec 32

/-- A byte of OAM, VRAM, a coordinate or a channel value (R8). -/
abbrev Byte := BitVec 8

end Sys2Proof
end

