-- ==== Sys2Proof/Syntax.lean ====
section
/-! DEFINITION. The sixteen operations of spec/opcode_table.json (R5, R102) with the operand fields of R103. -/

namespace Sys2Proof

/-- One constructor for each row of spec/opcode_table.json; the arguments are the operand fields of R103. -/
inductive Instr where
  /-- MODE.WR (R241). -/
  | modeWr (cgb bgpri : Bool)
  /-- MPAL.WR (R242). -/
  | mpalWr (sel : BitVec 1) (data : Byte)
  /-- CPAL.WR (R243). -/
  | cpalWr (isSprite : Bool) (pal : BitVec 3) (ci : BitVec 2) (rgb15 : BitVec 15)
  /-- STATUS.RD (R244). -/
  | statusRd
  /-- PAL.RESOLVE (R121 to R123). -/
  | palResolve (mode isSprite : Bool) (sel : BitVec 3) (ci : BitVec 2)
  /-- PAL.SPLIT (R124). -/
  | palSplit (rgb15 : BitVec 15)
  /-- TILE.ROWSEL (R141). -/
  | tileRowsel (row : BitVec 4) (tall yflip : Bool)
  /-- TILE.FETCH (R142 to R145). -/
  | tileFetch (tile : Byte) (bank : Bool) (off : BitVec 5)
  /-- TILE.PIXEL (R146). -/
  | tilePixel (b0 b1 : Byte) (c : BitVec 3) (xflip : Bool)
  /-- PB.BEGIN (R161). -/
  | pbBegin (ly : Byte)
  /-- PB.WRITE (R162, R163). -/
  | pbWrite (x : Byte) (ci : BitVec 2) (prio : Bool)
  /-- PB.READ (R164, R165). -/
  | pbRead (x ly : Byte)
  /-- PB.DISCARD (R166). -/
  | pbDiscard
  /-- SC.RENDER (R180 to R203). -/
  | scRender (ly : Byte) (tall : Bool)
  /-- FB.WRITE (R220 to R222). -/
  | fbWrite (x y : Byte) (ch : BitVec 2) (value : Byte)
  /-- FB.READ (R223, R224). -/
  | fbRead (x y : Byte) (ch : BitVec 2)
  deriving DecidableEq, Repr

end Sys2Proof
end

