-- ==== Sys2Proof/WellFormed.lean ====
section
/-! DEFINITION. Which instructions are legal (R106): three commands have operand combinations that are illegal although
every reserved bit is 0. Every other operand value of every command is legal (R56, R107). -/

namespace Sys2Proof

/-- PAL.RESOLVE's operands name a palette (R123): in monochrome mode `sel` is 0 or 1 and `is_sprite` is 1. -/
def palResolveLegal (mode isSprite : Bool) (sel : BitVec 3) : Bool :=
  mode || (decide (sel.toNat < 2) && isSprite)

/-- TILE.ROWSEL's row lies in the sprite (R141): below 8, or below 16 when tall. -/
def tileRowselLegal (row : BitVec 4) (tall : Bool) : Bool :=
  tall || decide (row.toNat < 8)

/-- TILE.FETCH's offset is even (R144). -/
def tileFetchLegal (off : BitVec 5) : Bool :=
  !off.getLsbD 0

/-- The instruction has no reserved operand value (R106). One that has some still decodes, and its meaning takes
`Fault(ILLEGAL_OP)` (R111). -/
def Instr.wellFormed : Instr → Bool
  | .modeWr _ _ => true
  | .mpalWr _ _ => true
  | .cpalWr _ _ _ _ => true
  | .statusRd => true
  | .palResolve mode isSprite sel _ => palResolveLegal mode isSprite sel
  | .palSplit _ => true
  | .tileRowsel row tall _ => tileRowselLegal row tall
  | .tileFetch _ _ off => tileFetchLegal off
  | .tilePixel _ _ _ _ => true
  | .pbBegin _ => true
  | .pbWrite _ _ _ => true
  | .pbRead _ _ => true
  | .pbDiscard => true
  | .scRender _ _ => true
  | .fbWrite _ _ _ _ => true
  | .fbRead _ _ _ => true

end Sys2Proof
end

