-- ==== Sys2Proof/Decode.lean ====
section
/-! DEFINITION. Command words (30_encoding.md part 2): the opcode map (R102), the mask, match and operand fields of every row
(R103), the decoder (R100, R104, R105), the encoder, and the host's reading of a table word. -/

namespace Sys2Proof

/-- The sixteen assigned operation codes (R102). -/
inductive Opcode where
  | modeWr | mpalWr | cpalWr | statusRd | palResolve | palSplit | tileRowsel | tileFetch | tilePixel
  | pbBegin | pbWrite | pbRead | pbDiscard | scRender | fbWrite | fbRead
  deriving DecidableEq, Repr

/-- The operations in the order of R102. -/
def allOpcodes : List Opcode :=
  [.modeWr, .mpalWr, .cpalWr, .statusRd, .palResolve, .palSplit, .tileRowsel, .tileFetch, .tilePixel,
   .pbBegin, .pbWrite, .pbRead, .pbDiscard, .scRender, .fbWrite, .fbRead]

/-- The value of `op` (R102). -/
def opcodeBits : Opcode → BitVec 6
  | .modeWr => 0x01#6
  | .mpalWr => 0x03#6
  | .cpalWr => 0x05#6
  | .statusRd => 0x07#6
  | .palResolve => 0x08#6
  | .palSplit => 0x09#6
  | .tileRowsel => 0x10#6
  | .tileFetch => 0x11#6
  | .tilePixel => 0x12#6
  | .pbBegin => 0x18#6
  | .pbWrite => 0x19#6
  | .pbRead => 0x1A#6
  | .pbDiscard => 0x1B#6
  | .scRender => 0x20#6
  | .fbWrite => 0x28#6
  | .fbRead => 0x29#6

/-- The `mask` column of R103: `op` and every reserved bit. -/
def opcodeMask : Opcode → Word
  | .modeWr => 0xFFFFFFFC#32
  | .mpalWr => 0xFFFFFE00#32
  | .cpalWr => 0xFFE00000#32
  | .statusRd => 0xFFFFFFFF#32
  | .palResolve => 0xFFFFFF80#32
  | .palSplit => 0xFFFF8000#32
  | .tileRowsel => 0xFFFFFFC0#32
  | .tileFetch => 0xFFFFC000#32
  | .tilePixel => 0xFFF00000#32
  | .pbBegin => 0xFFFFFF00#32
  | .pbWrite => 0xFFFFF800#32
  | .pbRead => 0xFFFF0000#32
  | .pbDiscard => 0xFFFFFFFF#32
  | .scRender => 0xFFFFFE00#32
  | .fbWrite => 0xFC000000#32
  | .fbRead => 0xFFFC0000#32

/-- The `match` column of R103. -/
def opcodeMatch : Opcode → Word
  | .modeWr => 0x04000000#32
  | .mpalWr => 0x0C000000#32
  | .cpalWr => 0x14000000#32
  | .statusRd => 0x1C000000#32
  | .palResolve => 0x20000000#32
  | .palSplit => 0x24000000#32
  | .tileRowsel => 0x40000000#32
  | .tileFetch => 0x44000000#32
  | .tilePixel => 0x48000000#32
  | .pbBegin => 0x60000000#32
  | .pbWrite => 0x64000000#32
  | .pbRead => 0x68000000#32
  | .pbDiscard => 0x6C000000#32
  | .scRender => 0x80000000#32
  | .fbWrite => 0xA0000000#32
  | .fbRead => 0xA4000000#32

/-- Why a word is no command. Both reasons raise `Fault(ILLEGAL_OP)` (R262). -/
inductive Reject where
  /-- `op` is not one of the sixteen of R102 (R105). -/
  | unassignedOp
  /-- `op` is assigned and a reserved bit of `arg` is 1 (R104). -/
  | reservedBit
  deriving DecidableEq, Repr

/-- The `op` field, bits 31:26 (R100). -/
def opField (w : Word) : BitVec 6 := w.extractLsb' 26 6

/-- The operation a word's `op` names, from `op` alone (R100, R102, R105). -/
def opcodeOf (w : Word) : Option Opcode :=
  allOpcodes.find? fun o => opcodeBits o == opField w

/-- The operand fields of R103, read as they stand: nothing is extended, scaled or shifted. -/
def operandsOf (o : Opcode) (w : Word) : Instr :=
  match o with
  | .modeWr => .modeWr (w.getLsbD 0) (w.getLsbD 1)
  | .mpalWr => .mpalWr (w.extractLsb' 8 1) (w.extractLsb' 0 8)
  | .cpalWr => .cpalWr (w.getLsbD 20) (w.extractLsb' 17 3) (w.extractLsb' 15 2) (w.extractLsb' 0 15)
  | .statusRd => .statusRd
  | .palResolve => .palResolve (w.getLsbD 6) (w.getLsbD 5) (w.extractLsb' 2 3) (w.extractLsb' 0 2)
  | .palSplit => .palSplit (w.extractLsb' 0 15)
  | .tileRowsel => .tileRowsel (w.extractLsb' 0 4) (w.getLsbD 4) (w.getLsbD 5)
  | .tileFetch => .tileFetch (w.extractLsb' 0 8) (w.getLsbD 8) (w.extractLsb' 9 5)
  | .tilePixel => .tilePixel (w.extractLsb' 0 8) (w.extractLsb' 8 8) (w.extractLsb' 16 3) (w.getLsbD 19)
  | .pbBegin => .pbBegin (w.extractLsb' 0 8)
  | .pbWrite => .pbWrite (w.extractLsb' 0 8) (w.extractLsb' 8 2) (w.getLsbD 10)
  | .pbRead => .pbRead (w.extractLsb' 0 8) (w.extractLsb' 8 8)
  | .pbDiscard => .pbDiscard
  | .scRender => .scRender (w.extractLsb' 0 8) (w.getLsbD 8)
  | .fbWrite => .fbWrite (w.extractLsb' 0 8) (w.extractLsb' 8 8) (w.extractLsb' 16 2) (w.extractLsb' 18 8)
  | .fbRead => .fbRead (w.extractLsb' 0 8) (w.extractLsb' 8 8) (w.extractLsb' 16 2)

/-- The decoder: total on every word, refusing by name (R103, R104, R105). -/
def decode (w : Word) : Except Reject Instr :=
  match opcodeOf w with
  | none => .error .unassignedOp
  | some o => if w &&& opcodeMask o = opcodeMatch o then .ok (operandsOf o w) else .error .reservedBit

/-- The operation of an instruction. -/
def Instr.opcode : Instr → Opcode
  | .modeWr _ _ => .modeWr
  | .mpalWr _ _ => .mpalWr
  | .cpalWr _ _ _ _ => .cpalWr
  | .statusRd => .statusRd
  | .palResolve _ _ _ _ => .palResolve
  | .palSplit _ => .palSplit
  | .tileRowsel _ _ _ => .tileRowsel
  | .tileFetch _ _ _ => .tileFetch
  | .tilePixel _ _ _ _ => .tilePixel
  | .pbBegin _ => .pbBegin
  | .pbWrite _ _ _ => .pbWrite
  | .pbRead _ _ => .pbRead
  | .pbDiscard => .pbDiscard
  | .scRender _ _ => .scRender
  | .fbWrite _ _ _ _ => .fbWrite
  | .fbRead _ _ _ => .fbRead

/-- A field of `n` bits placed with its lowest bit at bit `lo` of the word. -/
def placeField {n : Nat} (v : BitVec n) (lo : Nat) : Word := v.setWidth 32 <<< lo

/-- A one-bit field placed at bit `lo`. -/
def placeBit (b : Bool) (lo : Nat) : Word := placeField (BitVec.ofBool b) lo

/-- The operand bits of an instruction, each field at its place of R103. -/
def argBits : Instr → Word
  | .modeWr cgb bgpri => placeBit cgb 0 ||| placeBit bgpri 1
  | .mpalWr sel data => placeField data 0 ||| placeField sel 8
  | .cpalWr isSprite pal ci rgb15 =>
    placeField rgb15 0 ||| placeField ci 15 ||| placeField pal 17 ||| placeBit isSprite 20
  | .statusRd => 0#32
  | .palResolve mode isSprite sel ci =>
    placeField ci 0 ||| placeField sel 2 ||| placeBit isSprite 5 ||| placeBit mode 6
  | .palSplit rgb15 => placeField rgb15 0
  | .tileRowsel row tall yflip => placeField row 0 ||| placeBit tall 4 ||| placeBit yflip 5
  | .tileFetch tile bank off => placeField tile 0 ||| placeBit bank 8 ||| placeField off 9
  | .tilePixel b0 b1 c xflip =>
    placeField b0 0 ||| placeField b1 8 ||| placeField c 16 ||| placeBit xflip 19
  | .pbBegin ly => placeField ly 0
  | .pbWrite x ci prio => placeField x 0 ||| placeField ci 8 ||| placeBit prio 10
  | .pbRead x ly => placeField x 0 ||| placeField ly 8
  | .pbDiscard => 0#32
  | .scRender ly tall => placeField ly 0 ||| placeBit tall 8
  | .fbWrite x y ch value =>
    placeField x 0 ||| placeField y 8 ||| placeField ch 16 ||| placeField value 18
  | .fbRead x y ch => placeField x 0 ||| placeField y 8 ||| placeField ch 16

/-- The word of an instruction: `op` in bits 31:26, the operands at their places, every reserved bit 0 (R100, R103). -/
def encode (i : Instr) : Word := placeField (opcodeBits i.opcode) 26 ||| argBits i

/-- The instruction the decoder reads from a word of spec/opcode_table.json, `nbits` bits numbered from the least significant
one, the bits above them 0. A command is one 32-bit word moved whole, with no byte order (R57, R108). -/
def decodeTableWord (nbits w : Nat) : Option Instr :=
  match decode (BitVec.ofNat 32 (w % 2 ^ nbits)) with
  | .ok i => some i
  | .error _ => none

/-- One operand field of R103: its name, its lowest bit, its width, and whether the disassembler prints it in hexadecimal
(R109). -/
structure OperandField where
  name : String
  lo : Nat
  width : Nat
  hex : Bool
  deriving DecidableEq, Repr

/-- The operand fields of every row, in the order R103 prints them. -/
def operandFields : Opcode → List OperandField
  | .modeWr => [⟨"cgb", 0, 1, false⟩, ⟨"bgpri", 1, 1, false⟩]
  | .mpalWr => [⟨"data", 0, 8, true⟩, ⟨"sel", 8, 1, false⟩]
  | .cpalWr => [⟨"rgb15", 0, 15, true⟩, ⟨"ci", 15, 2, false⟩, ⟨"pal", 17, 3, false⟩, ⟨"is_sprite", 20, 1, false⟩]
  | .statusRd => []
  | .palResolve => [⟨"ci", 0, 2, false⟩, ⟨"sel", 2, 3, false⟩, ⟨"is_sprite", 5, 1, false⟩, ⟨"mode", 6, 1, false⟩]
  | .palSplit => [⟨"rgb15", 0, 15, true⟩]
  | .tileRowsel => [⟨"row", 0, 4, false⟩, ⟨"tall", 4, 1, false⟩, ⟨"yflip", 5, 1, false⟩]
  | .tileFetch => [⟨"tile", 0, 8, false⟩, ⟨"bank", 8, 1, false⟩, ⟨"off", 9, 5, false⟩]
  | .tilePixel => [⟨"b0", 0, 8, true⟩, ⟨"b1", 8, 8, true⟩, ⟨"c", 16, 3, false⟩, ⟨"xflip", 19, 1, false⟩]
  | .pbBegin => [⟨"ly", 0, 8, false⟩]
  | .pbWrite => [⟨"x", 0, 8, false⟩, ⟨"ci", 8, 2, false⟩, ⟨"prio", 10, 1, false⟩]
  | .pbRead => [⟨"x", 0, 8, false⟩, ⟨"ly", 8, 8, false⟩]
  | .pbDiscard => []
  | .scRender => [⟨"ly", 0, 8, false⟩, ⟨"tall", 8, 1, false⟩]
  | .fbWrite => [⟨"x", 0, 8, false⟩, ⟨"y", 8, 8, false⟩, ⟨"ch", 16, 2, false⟩, ⟨"value", 18, 8, true⟩]
  | .fbRead => [⟨"x", 0, 8, false⟩, ⟨"y", 8, 8, false⟩, ⟨"ch", 16, 2, false⟩]

end Sys2Proof
end

