-- ==== Sys2Proof/Config.lean ====
section
/-! DEFINITION. The implementation parameters of R8, and the free values: constants with no body for what the spec leaves
unspecified (R165, R224, R244, R36; spec/93 U1, U7, U8, U9). -/

namespace Sys2Proof

/-- The parameters the spec leaves to the model as arguments (R8, and spec/92's table of open parameters). `State.params`
holds them, so a statement about every state is a statement about every value of them (log 8). -/
structure Params where
  /-- `TILE_DATA_BASE`, the VRAM address of tile 0, row 0, first byte (R55). -/
  tileDataBase : BitVec 16
  /-- `SCREEN_W`, the frame width in pixels. -/
  screenW : Nat
  /-- `SCREEN_H`, the frame height in scanlines. -/
  screenH : Nat
  /-- `expand5` as a table: entry `k` is the 8-bit channel value of the 5-bit value `k` (R124, U11). -/
  expand5 : Vector Byte 32
  deriving DecidableEq, Repr

/-- The defaults of R8: 0x8000, 160, 144, `zext_8`. PRESUMED for the first three (G3, G7; log 8). -/
def Params.defaults : Params where
  tileDataBase := 0x8000#16
  screenW := 160
  screenH := 144
  expand5 := Vector.ofFn fun k => BitVec.ofNat 8 k.val

/-- The constraints the spec puts on the parameters: R302 (`TILE_DATA_BASE + 4111 <= 0xFFFF`, the constant moved to the
right), and a frame of at most 256 by 256 (U14). -/
def Params.wf (p : Params) : Bool :=
  decide (p.tileDataBase.toNat ≤ 0xFFFF - 4111) && decide (p.screenW ≤ 256) && decide (p.screenH ≤ 256)

/-- `OAM_ENTRIES` (R8). -/
def Config.oamEntries : Nat := 40

/-- `OAM_BYTES` (R8): 40 entries of 4 bytes. -/
def Config.oamBytes : Nat := 160

/-- `VRAM_ADDR_BITS` is 16 (R8): the number of addresses of one VRAM bank. -/
def Config.vramBytes : Nat := 65536

/-- The three bits `prio ++ ci` a PB.READ of an entry that does not exist returns (R165, U1). -/
opaque Config.freePbEntry : Nat → BitVec 3

/-- The eight bits an FB.READ off the frame or of an unwritten channel returns (R224, U8). -/
opaque Config.freeFbByte : Nat → Byte

/-- The two MODE bits STATUS.RD returns before the first MODE.WR (R244, U7). -/
opaque Config.freeStatusMode : Nat → BitVec 2

/-- The eight PB_LY bits STATUS.RD returns before the first PB.BEGIN (R244, U7). -/
opaque Config.freeStatusPbLy : Nat → Byte

/-- MODE after reset: one unknown constant for each reset (R36, U9; DESIGN CHOICE, log 3). -/
opaque Config.resetMode : Nat → BitVec 2

/-- MPAL[s] after reset (R36, U9; DESIGN CHOICE, log 3). -/
opaque Config.resetMpal : Nat → Nat → Byte

/-- The CPAL entry with the given index after reset (R36, U9; DESIGN CHOICE, log 3). -/
opaque Config.resetCpal : Nat → Nat → BitVec 15

/-- PB_LY after reset (R36, U16; DESIGN CHOICE, log 3). -/
opaque Config.resetPbLy : Nat → Byte

/-- `prio ++ ci` of Priority Buffer entry x after reset (R36, U16; DESIGN CHOICE, log 3). -/
opaque Config.resetPbEntry : Nat → Nat → BitVec 3

end Sys2Proof
end

