-- ==== Sys2Proof/Machine/State.lean ====
section
/-! DEFINITION. The architectural state (R34, 10_state.md), the memories the block reads (R31), its ports (R100, R101, R290),
the reasons to stop, and the state after reset (R35, R36, R290). -/

namespace Sys2Proof.Machine

/-- The fault causes of R261. -/
inductive FaultCode where
  /-- Code 1: an unassigned `op`, a reserved `arg` bit, or a reserved operand value (R262). -/
  | illegalOp
  /-- Code 2: TILE.FETCH with `bank = 1` while `MODE.CGB = 0` (R143). -/
  | badBank
  /-- Code 3: the source's malformed table size; raised by nothing in this hardware (R269). -/
  | badTable
  deriving DecidableEq, Repr

/-- Why the machine stops. The block's own faults (R261) are no stops: they are next states with FAULT written (R263). -/
inductive Fault where
  /-- Raised by `step` in a state whose parameters break R302 or U14's bounds, so that no machine of the spec has it. Safe:
  the machine stops where the spec describes none (log 9). -/
  | badParameters
  deriving DecidableEq, Repr

/-- Why an instruction gets no meaning. -/
inductive Refusal where
  /-- Raised by an arm of `exec` whose instruction has no meaning yet: by none in this model. Safe. -/
  | notModelled (mnemonic : String)
  deriving DecidableEq, Repr

/-- One entry of the Priority Buffer: `PB_VALID[x]`, `PB_CI[x]`, `PB_PRIO[x]` (R28, R87). -/
structure PbEntry where
  valid : Bool
  ci : BitVec 2
  prio : Bool
  deriving DecidableEq, Repr

/-- Bytes by address: addresses strictly rising, an unlisted one as `Memory.unlisted` or `Option.none` has it. -/
abbrev Memory := List Host.Cell

/-- What an OAM or VRAM byte that nothing has written reads as (R31, U15; DESIGN CHOICE, unsafe, log 7). -/
def Memory.unlisted : Byte := 0#8

/-- What reaches the block from outside, one at a time and between operations only (R12, R31, R111, R290). -/
inductive Input where
  /-- A command word pushed to the command port (R100). -/
  | command (w : Word)
  /-- The reset input (R290). -/
  | reset
  /-- The memory subsystem puts a byte into the sprite attribute table (R31, R51). -/
  | oamWrite (off : Fin 160) (v : Byte)
  /-- The memory subsystem puts a byte into a VRAM bank (R31, R53). -/
  | vramWrite (bank : Bool) (a : BitVec 16) (v : Byte)
  deriving DecidableEq, Repr

/-- The state of the block (R34), of the memories it reads (R31) and of its ports. -/
structure State where
  /-- The parameters of R8: no step writes them (log 8). -/
  params : Params
  /-- `MODE`: bit 0 `CGB`, bit 1 `BGPRI` (R22). -/
  mode : BitVec 2
  /-- `MODE` has been written since reset (R36, U7; the model's own, log 4). -/
  modeSet : Bool
  /-- `FAULT` (R24). -/
  fault : BitVec 4
  /-- `MPAL[s]` (R26). -/
  mpal : Vector Byte 2
  /-- `CPAL[l][p][k]` at index `32 * l + 4 * p + k` (R27). -/
  cpal : Vector (BitVec 15) 64
  /-- `PB_OPEN` (R28). -/
  pbOpen : Bool
  /-- `PB_LY` (R28). -/
  pbLy : Byte
  /-- `PB_LY` has been written since reset (R36, U7; the model's own, log 4). -/
  pbLySet : Bool
  /-- The `SCREEN_W` entries of the Priority Buffer, column 0 first (R28). -/
  pb : List PbEntry
  /-- `FB[y][x][ch]` for the channels written since reset, at key `1024 * y + 4 * x + ch` (R30, log 6). -/
  fb : Memory
  /-- `OAM[0..159]`, outside the block (R31). -/
  oam : Memory
  /-- `VRAM[0]`, outside the block (R31). -/
  vram0 : Memory
  /-- `VRAM[1]`, outside the block (R31). -/
  vram1 : Memory
  /-- The inputs waiting at the block, oldest first (log 1). -/
  inbox : List Input
  /-- The result word of the last command (R101, log 2). -/
  res : Word
  /-- How many free values have been drawn (the model's own, log 5). -/
  freeCount : Nat
  deriving DecidableEq, Repr

/-- The block right after its reset number `n` (R35, R36): not halted, the Priority Buffer closed and without a live entry,
no frame-buffer channel written, and an unknown constant in every other register (log 3). OAM and VRAM list nothing, no
input waits; `Machine/Ops.lean` keeps those of a running machine, which reset does not touch (R290). -/
def State.afterReset (p : Params) (n : Nat) : State where
  params := p
  mode := Config.resetMode n
  modeSet := false
  fault := 0#4
  mpal := Vector.ofFn fun s => Config.resetMpal n s.val
  cpal := Vector.ofFn fun k => Config.resetCpal n k.val
  pbOpen := false
  pbLy := Config.resetPbLy n
  pbLySet := false
  pb := (List.range p.screenW).map fun x =>
    ⟨false, (Config.resetPbEntry n x).extractLsb' 0 2, (Config.resetPbEntry n x).getLsbD 2⟩
  fb := []
  oam := []
  vram0 := []
  vram1 := []
  inbox := []
  res := 0#32
  freeCount := n + 1

/-- The machine right after reset, with the parameters at their defaults (R290, R291, R8). -/
def State.reset : State := State.afterReset Params.defaults 0

end Sys2Proof.Machine
end

