-- ==== Sys2Proof/Machine/Flags.lean ====
section
/-! DEFINITION. The flags: the two MODE bits and the tests on them, the halt test, and the words that report status. The block
has no condition codes (R25): no arithmetic leaves anything but its result. -/

namespace Sys2Proof.Machine

/-- `MODE.CGB`: colour mode (R22). -/
def State.cgb (s : State) : Bool := s.mode.getLsbD 0

/-- `MODE.BGPRI`: the master background-priority control bit (R22). -/
def State.bgpri (s : State) : Bool := s.mode.getLsbD 1

/-- The two MODE fields as one register (R22). -/
def modeBits (cgb bgpri : Bool) : BitVec 2 := BitVec.ofBool bgpri ++ BitVec.ofBool cgb

/-- The "LCDC override": colour mode with the master priority bit clear (R191). -/
def State.override (s : State) : Bool := s.cgb && !s.bgpri

/-- The bank SC.RENDER selects: `MODE.CGB & attr.bank` (R187). -/
def State.bankOf (s : State) (attrBankBit : Bool) : Bool := s.cgb && attrBankBit

/-- The block is halted (R264). -/
def State.halted (s : State) : Bool := s.fault != 0#4

/-- The value of `FAULT` for a cause (R261). -/
def FaultCode.bits : FaultCode → BitVec 4
  | .illegalOp => 1#4
  | .badBank => 2#4
  | .badTable => 3#4

/-- The result word of a fault or of a halted block, `0x80000000 | zext_32(FAULT)` (R101, R263, R264). -/
def faultWord (fault : BitVec 4) : Word := 0x80000000#32 ||| fault.setWidth 32

/-- The result word of STATUS.RD (R244): `FAULT` in 19:16, `PB_LY` in 15:8, `PB_OPEN` in 2, `MODE` in 1:0. -/
def statusWord (mode : BitVec 2) (pbOpen : Bool) (pbLy : Byte) (fault : BitVec 4) : Word :=
  (fault ++ pbLy ++ 0#5 ++ BitVec.ofBool pbOpen ++ mode : BitVec 20).setWidth 32

/-- The suppression tests of R192 on a Priority Buffer entry, in their order: (a) the sprite's priority bit over a non-zero
background index, (b) the entry's priority flag in colour mode. -/
def pixelShownOver (cgb sprPrio : Bool) (bci : BitVec 2) (bprio : Bool) : Bool :=
  if sprPrio = true ∧ bci ≠ 0#2 then false
  else if cgb = true ∧ bprio = true then false
  else true

end Sys2Proof.Machine
end

