-- ==== Sys2Proof/Machine/Operands.lean ====
section
/-! DEFINITION. The data formats the block decodes (30_encoding.md part 1) and the arithmetic of R113: attribute byte, sprite
position and visibility, tile addressing, pixel decoding, palette slices and indices, channel extraction. -/

namespace Sys2Proof.Machine

/-- `attr.prio` (R13, R82). -/
def attrPrio (attr : Byte) : Bool := attr.getLsbD 7

/-- `attr.yflip` (R13, R82). -/
def attrYflip (attr : Byte) : Bool := attr.getLsbD 6

/-- `attr.xflip` (R13, R82). -/
def attrXflip (attr : Byte) : Bool := attr.getLsbD 5

/-- `attr.palsel` (R13, R82). -/
def attrPalsel (attr : Byte) : BitVec 1 := attr.extractLsb' 4 1

/-- `attr.bank` (R13, R82). -/
def attrBank (attr : Byte) : Bool := attr.getLsbD 3

/-- `attr.cpal` (R13, R82). -/
def attrCpal (attr : Byte) : BitVec 3 := attr.extractLsb' 0 3

/-- The sprite's height in pixels (R184). -/
def spriteHeight (tall : Bool) : Nat := if tall then 16 else 8

/-- `Y = oy -_8 16` (R183). -/
def spriteTop (oy : Byte) : Byte := oy - 16#8

/-- `X = ox -_8 8` (R183). -/
def spriteLeft (ox : Byte) : Byte := ox - 8#8

/-- The visibility test of R184, its sum unbounded. -/
def spriteVisible (tall : Bool) (y ly : Byte) : Bool :=
  decide (y.toNat ≤ ly.toNat) && decide (ly.toNat < y.toNat + spriteHeight tall)

/-- A tall sprite's tile index loses its low bit before any use (R185). -/
def spriteTile (tall : Bool) (tile : Byte) : Byte := if tall then tile &&& 0xFE#8 else tile

/-- The row of a visible sprite, `ly - Y`, below 16 (R186). -/
def spriteRow (y ly : Byte) : BitVec 4 := BitVec.ofNat 4 (ly.toNat - y.toNat)

/-- The byte offset of a sprite row after the Y-flip (R141). -/
def rowOffset (row : BitVec 4) (tall yflip : Bool) : BitVec 5 :=
  let row' := if yflip then spriteHeight tall - 1 - row.toNat else row.toNat
  BitVec.ofNat 5 (2 * row')

/-- `TILE_DATA_BASE + 16 * tile + off`, a 16-bit address that R302 keeps from wrapping (R142). -/
def tileAddress (p : Params) (tile : Byte) (off : BitVec 5) : BitVec 16 :=
  p.tileDataBase + 16#16 * tile.setWidth 16 + off.setWidth 16

/-- The effective in-tile column (R146). -/
def effectiveColumn (c : BitVec 3) (xflip : Bool) : BitVec 3 := if xflip then c else 7#3 - c

/-- The colour index of one column of a tile row: the second byte gives the high bit (R83, R146). -/
def pixelIndex (b0 b1 : Byte) (c : BitVec 3) (xflip : Bool) : BitVec 2 :=
  let k := (effectiveColumn c xflip).toNat
  BitVec.ofBool (b1.getLsbD k) ++ BitVec.ofBool (b0.getLsbD k)

/-- `x = X +_8 c` (R189). -/
def pixelColumn (x : Byte) (c : BitVec 3) : Byte := x + c.setWidth 8

/-- The shade of colour index `ci` in a monochrome palette byte, bits `2 ci + 1 : 2 ci` (R85, R121). -/
def shadeOf (pal : Byte) (ci : BitVec 2) : BitVec 2 := pal.extractLsb' (2 * ci.toNat) 2

/-- Where `CPAL[l][p][k]` stands among the 64 entries: `32 * l + 4 * p + k` (R27). -/
def cpalIndex (isSprite : Bool) (pal : BitVec 3) (ci : BitVec 2) : Fin 64 :=
  (BitVec.ofBool isSprite ++ pal ++ ci : BitVec 6).toFin

/-- `expand5` (R8, R124). -/
def expandChannel (p : Params) (v : BitVec 5) : Byte := p.expand5[v.toFin]

/-- The three channel values of a pixel: R, G, B with the ids 0, 1, 2 (R89). -/
structure Channels where
  ch0 : Byte
  ch1 : Byte
  ch2 : Byte
  deriving DecidableEq, Repr

/-- Channel extraction (R86, R124). -/
def splitColour (p : Params) (rgb15 : BitVec 15) : Channels where
  ch0 := expandChannel p (rgb15.extractLsb' 0 5)
  ch1 := expandChannel p (rgb15.extractLsb' 5 5)
  ch2 := expandChannel p (rgb15.extractLsb' 10 5)

/-- A shade on all three channels (R125, R193). -/
def shadeChannels (shade : BitVec 2) : Channels :=
  let v := shade.setWidth 8
  ⟨v, v, v⟩

/-- The key of `FB[y][x][ch]` in the frame buffer's list: `1024 * y + 4 * x + ch`. -/
def fbKey (x y : Byte) (ch : BitVec 2) : Nat := 1024 * y.toNat + 4 * x.toNat + ch.toNat

/-- The frame-buffer channel exists (R89, R220). -/
def onFrame (p : Params) (x y : Byte) (ch : BitVec 2) : Bool :=
  decide (x.toNat < p.screenW) && decide (y.toNat < p.screenH) && decide (ch.toNat < 3)

/-- The sprite indices in the order SC.RENDER visits them: 39 down to 0 (R181). -/
def spriteOrder : List Nat := (List.range Config.oamEntries).reverse

/-- The columns in the order SC.RENDER visits them: 0 to 7 (R189). -/
def columnOrder : List (BitVec 3) := [0#3, 1#3, 2#3, 3#3, 4#3, 5#3, 6#3, 7#3]

end Sys2Proof.Machine
end

