-- ==== Sys2Proof/Machine/Ops.lean ====
section
/-! DEFINITION. The shared operations over the state: sparse byte lists, register and memory accessors, free values, taking a
fault (R263), reset (R290), and the five components' functions that both the commands and SC.RENDER use (`call OP`, R11). -/

namespace Sys2Proof.Machine

/-! ## Sparse bytes -/

/-- The value listed at an address. -/
def cellAt : Memory → Nat → Option Byte
  | [], _ => none
  | (b, v) :: m, a => if b = a then some v else cellAt m a

/-- Lists a value at an address, in place of the one listed there. -/
def putCell (a : Nat) (v : Byte) : Memory → Memory
  | [] => [(a, v)]
  | (b, w) :: m =>
    if a < b then (a, v) :: (b, w) :: m
    else if a = b then (a, v) :: m
    else (b, w) :: putCell a v m

/-- Unlists an address. -/
def dropCell (a : Nat) : Memory → Memory
  | [] => []
  | (b, w) :: m => if b = a then m else (b, w) :: dropCell a m

/-- Reads one byte of OAM or VRAM. -/
def memRead (m : Memory) (a : Nat) : Byte := (cellAt m a).getD Memory.unlisted

/-- Writes one byte of OAM or VRAM, keeping the canonical form. -/
def memWrite (a : Nat) (v : Byte) (m : Memory) : Memory :=
  if v = Memory.unlisted then dropCell a m else putCell a v m

/-- The addresses of a list rise strictly. -/
abbrev Memory.rising (m : Memory) : Prop := (m.map Prod.fst).Pairwise (· < ·)

/-- The canonical form of a memory of `size` bytes: addresses strictly rising and below `size`, and no entry equal to what an
unlisted address reads as. -/
abbrev Memory.wf (size : Nat) (m : Memory) : Prop :=
  m.rising ∧ ∀ e ∈ m, e.1 < size ∧ e.2 ≠ Memory.unlisted

/-! ## Results, free values and faults -/

/-- `result <- v` (R11, R101). -/
def State.setRes (s : State) (v : Word) : State := { s with res := v }

/-- One more free value has been drawn (log 5). -/
def State.drawFree (s : State) : State := { s with freeCount := s.freeCount + 1 }

/-- `raise Fault(code)` (R263): the first cause is kept, the result word reports it, nothing else changes. -/
def raiseFault (code : FaultCode) (s : State) : State :=
  let fault := if s.fault = 0#4 then code.bits else s.fault
  { s with fault := fault, res := faultWord fault }

/-- A command met by a halted block: no effect but the result word (R264). -/
def haltedResult (s : State) : State := s.setRes (faultWord s.fault)

/-- The reset input (R290, R35, R36): the one way out of the halt (R265). OAM, VRAM and what waits at the block's ports are
not the block's and stay. -/
def resetBlock (s : State) : State :=
  { State.afterReset s.params s.freeCount with
    oam := s.oam, vram0 := s.vram0, vram1 := s.vram1, inbox := s.inbox, res := s.res }

/-! ## The memory subsystem -/

/-- `MemRead(OAM, off, 1)` (R11, R51). -/
def State.oamByte (s : State) (off : Nat) : Byte := memRead s.oam off

/-- `MemRead(VRAM[bank], a, 1)` (R11, R53). -/
def State.vramByte (s : State) (bank : Bool) (a : BitVec 16) : Byte :=
  memRead (if bank then s.vram1 else s.vram0) a.toNat

/-- The memory subsystem writes a byte of the sprite attribute table (R31). -/
def State.writeOam (s : State) (off : Fin 160) (v : Byte) : State :=
  { s with oam := memWrite off.val v s.oam }

/-- The memory subsystem writes a byte of a VRAM bank (R31). -/
def State.writeVram (s : State) (bank : Bool) (a : BitVec 16) (v : Byte) : State :=
  if bank then { s with vram1 := memWrite a.toNat v s.vram1 } else { s with vram0 := memWrite a.toNat v s.vram0 }

/-! ## Mode flags and palettes -/

/-- Writes both MODE fields (R241). -/
def State.writeMode (s : State) (cgb bgpri : Bool) : State :=
  { s with mode := modeBits cgb bgpri, modeSet := true }

/-- `MPAL[sel]` (R26). -/
def State.mpalAt (s : State) (sel : BitVec 1) : Byte := s.mpal[sel.toFin]

/-- Writes `MPAL[sel]` (R242). -/
def State.writeMpal (s : State) (sel : BitVec 1) (v : Byte) : State :=
  { s with mpal := s.mpal.set sel.toFin v }

/-- `CPAL[l][p][k]` (R27). -/
def State.cpalAt (s : State) (isSprite : Bool) (pal : BitVec 3) (ci : BitVec 2) : BitVec 15 :=
  s.cpal[cpalIndex isSprite pal ci]

/-- Writes `CPAL[l][p][k]` (R243). -/
def State.writeCpal (s : State) (isSprite : Bool) (pal : BitVec 3) (ci : BitVec 2) (v : BitVec 15) : State :=
  { s with cpal := s.cpal.set (cpalIndex isSprite pal ci) v }

/-! ## Palette Resolver -/

/-- The monochrome case of the resolver (R121). -/
def State.resolveShade (s : State) (sel : BitVec 1) (ci : BitVec 2) : BitVec 2 := shadeOf (s.mpalAt sel) ci

/-- The channels of a sprite pixel that is shown (R193, R194). -/
def State.pixelChannels (s : State) (attr : Byte) (ci : BitVec 2) : Channels :=
  if s.cgb then splitColour s.params (s.cpalAt true (attrCpal attr) ci)
  else shadeChannels (s.resolveShade (attrPalsel attr) ci)

/-! ## Tile Decoder -/

/-- The two bytes of a tile row, the first byte first (R142, R188). -/
def State.fetchRow (s : State) (tile : Byte) (bank : Bool) (off : BitVec 5) : Byte × Byte :=
  let a := tileAddress s.params tile off
  (s.vramByte bank a, s.vramByte bank (a + 1#16))

/-! ## Priority Buffer -/

/-- The entry a query of (x, ly) finds: the buffer is open on that scanline, x is on the frame, and the entry has been written
since PB.BEGIN (R164). -/
def State.pbEntryAt (s : State) (x ly : Byte) : Option PbEntry :=
  if s.pbOpen = true ∧ ly = s.pbLy ∧ x.toNat < s.params.screenW then (s.pb[x.toNat]?).filter (·.valid) else none

/-- The query of R164: the entry's colour index and flag, or three free bits, fresh at each read (R165, U1). -/
def State.readPb (s : State) (x ly : Byte) : (BitVec 2 × Bool) × State :=
  match s.pbEntryAt x ly with
  | some e => ((e.ci, e.prio), s)
  | none =>
    let v := Config.freePbEntry s.freeCount
    ((v.extractLsb' 0 2, v.getLsbD 2), s.drawFree)

/-- Every entry invalid, its bits kept (R161, R166). -/
def invalidEntries (pb : List PbEntry) : List PbEntry := pb.map fun e => { e with valid := false }

/-- PB.BEGIN's effect (R161). -/
def State.beginPb (s : State) (ly : Byte) : State :=
  { s with pbOpen := true, pbLy := ly, pbLySet := true, pb := invalidEntries s.pb }

/-- PB.DISCARD's effect (R166). -/
def State.discardPb (s : State) : State := { s with pbOpen := false, pb := invalidEntries s.pb }

/-- PB.WRITE's effect, dropped while closed or off the frame (R162, R163). -/
def State.writePb (s : State) (x : Byte) (ci : BitVec 2) (prio : Bool) : State :=
  if s.pbOpen = true ∧ x.toNat < s.params.screenW then { s with pb := s.pb.set x.toNat ⟨true, ci, prio⟩ } else s

/-! ## Frame Buffer Writer -/

/-- The value of `FB[y][x][ch]`, if the channel has been written since reset (R30). -/
def State.fbAt (s : State) (x y : Byte) (ch : BitVec 2) : Option Byte := cellAt s.fb (fbKey x y ch)

/-- FB.WRITE's effect: off the frame, and for channel 3, nothing (R220, R221, R222). -/
def State.writeFb (s : State) (x y : Byte) (ch : BitVec 2) (v : Byte) : State :=
  if onFrame s.params x y ch then { s with fb := putCell (fbKey x y ch) v s.fb } else s

/-- The value FB.READ returns: eight free bits off the frame and for an unwritten channel (R223, R224, U8). -/
def State.readFb (s : State) (x y : Byte) (ch : BitVec 2) : Byte × State :=
  match if onFrame s.params x y ch then s.fbAt x y ch else none with
  | some v => (v, s)
  | none => (Config.freeFbByte s.freeCount, s.drawFree)

/-! ## Sprite Compositor -/

/-- The three writes of a shown pixel, channels 0, 1, 2 in that order (R195). -/
def State.writePixel (s : State) (x ly : Byte) (v : Channels) : State :=
  ((s.writeFb x ly 0#2 v.ch0).writeFb x ly 1#2 v.ch1).writeFb x ly 2#2 v.ch2

/-- Whether a non-transparent sprite pixel is shown: always under the override, which reads no entry (R191); else by the entry
at the pixel (R192). -/
def State.pixelShown (s : State) (attr ly x : Byte) : Bool × State :=
  if s.override then (true, s)
  else
    match s.readPb x ly with
    | ((bci, bprio), s') => (pixelShownOver s.cgb (attrPrio attr) bci bprio, s')

/-- One non-transparent pixel of a visible sprite (R191 to R195). -/
def State.drawPixel (s : State) (attr ly x : Byte) (ci : BitVec 2) : State :=
  match s.pixelShown attr ly x with
  | (true, s') => s'.writePixel x ly (s'.pixelChannels attr ci)
  | (false, s') => s'

/-- One column of a visible sprite; colour index 0 is skipped entirely (R189, R190). -/
def State.drawColumn (attr ly left b0 b1 : Byte) (s : State) (c : BitVec 3) : State :=
  let ci := pixelIndex b0 b1 c (attrXflip attr)
  if ci = 0#2 then s else s.drawPixel attr ly (pixelColumn left c) ci

/-- All the work for sprite `i` (R182 to R195). -/
def State.drawSprite (ly : Byte) (tall : Bool) (s : State) (i : Nat) : State :=
  let oy := s.oamByte (4 * i)
  let ox := s.oamByte (4 * i + 1)
  let tile := s.oamByte (4 * i + 2)
  let attr := s.oamByte (4 * i + 3)
  let y := spriteTop oy
  if spriteVisible tall y ly then
    let off := rowOffset (spriteRow y ly) tall (attrYflip attr)
    let row := s.fetchRow (spriteTile tall tile) (s.bankOf (attrBank attr)) off
    columnOrder.foldl (State.drawColumn attr ly (spriteLeft ox) row.1 row.2) s
  else s

/-- The sprite pass of one scanline (R197). -/
def State.renderSprites (s : State) (ly : Byte) (tall : Bool) : State :=
  spriteOrder.foldl (State.drawSprite ly tall) s

end Sys2Proof.Machine
end

