-- ==== Sys2Proof/Machine/Compositor.lean ====
section
/-! DEFINITION. The Sprite Compositor operation (44_sprite_compositor.md). -/

namespace Sys2Proof.Machine

/-- SC.RENDER (R180, R197): the sprite pass of one scanline, then the result 0. -/
def execScRender (ly : Byte) (tall : Bool) (s : State) : Host.Outcome State Fault Refusal :=
  .next ((s.renderSprites ly tall).setRes 0#32)

end Sys2Proof.Machine
end

