-- ==== Sys2Proof/Machine/ConfigStatus.lean ====
section
/-! DEFINITION. The configuration and status operations (46_config_and_status.md). -/

namespace Sys2Proof.Machine

/-- MODE.WR (R241). -/
def execModeWr (cgb bgpri : Bool) (s : State) : Host.Outcome State Fault Refusal :=
  .next ((s.writeMode cgb bgpri).setRes 0#32)

/-- MPAL.WR (R242). -/
def execMpalWr (sel : BitVec 1) (data : Byte) (s : State) : Host.Outcome State Fault Refusal :=
  .next ((s.writeMpal sel data).setRes 0#32)

/-- CPAL.WR (R243). -/
def execCpalWr (isSprite : Bool) (pal : BitVec 3) (ci : BitVec 2) (rgb15 : BitVec 15) (s : State) :
    Host.Outcome State Fault Refusal :=
  .next ((s.writeCpal isSprite pal ci rgb15).setRes 0#32)

/-- STATUS.RD (R244). The bits of a register unwritten since reset are free (U7, log 4, log 5). -/
def execStatusRd (s : State) : Host.Outcome State Fault Refusal :=
  let mode := if s.modeSet then s.mode else Config.freeStatusMode s.freeCount
  let pbLy := if s.pbLySet then s.pbLy else Config.freeStatusPbLy s.freeCount
  let s' := if s.modeSet && s.pbLySet then s else s.drawFree
  .next (s'.setRes (statusWord mode s.pbOpen pbLy s.fault))

end Sys2Proof.Machine
end

