-- ==== Sys2Proof/Machine/FrameBuffer.lean ====
section
/-! DEFINITION. The Frame Buffer Writer operations (45_frame_buffer_writer.md). -/

namespace Sys2Proof.Machine

/-- FB.WRITE (R220, R221, R222). -/
def execFbWrite (x y : Byte) (ch : BitVec 2) (value : Byte) (s : State) : Host.Outcome State Fault Refusal :=
  .next ((s.writeFb x y ch value).setRes 0#32)

/-- FB.READ (R223, R224). -/
def execFbRead (x y : Byte) (ch : BitVec 2) (s : State) : Host.Outcome State Fault Refusal :=
  match s.readFb x y ch with
  | (v, s') => .next (s'.setRes (v.setWidth 32))

end Sys2Proof.Machine
end

