-- ==== Sys2Proof/Machine/Palette.lean ====
section
/-! DEFINITION. The Palette Resolver operations (41_palette_resolver.md). -/

namespace Sys2Proof.Machine

/-- PAL.RESOLVE: illegal operands (R123), the monochrome case (R121), the colour case (R122). -/
def execPalResolve (mode isSprite : Bool) (sel : BitVec 3) (ci : BitVec 2) (s : State) :
    Host.Outcome State Fault Refusal :=
  if mode then .next (s.setRes ((s.cpalAt isSprite sel ci).setWidth 32))
  else if 2 ≤ sel.toNat ∨ isSprite = false then .next (raiseFault .illegalOp s)
  else .next (s.setRes ((s.resolveShade (sel.extractLsb' 0 1) ci).setWidth 32))

/-- PAL.SPLIT (R124). -/
def execPalSplit (rgb15 : BitVec 15) (s : State) : Host.Outcome State Fault Refusal :=
  let v := splitColour s.params rgb15
  .next (s.setRes ((v.ch2 ++ v.ch1 ++ v.ch0 : BitVec 24).setWidth 32))

end Sys2Proof.Machine
end

