-- ==== Sys2Proof/Machine/PriorityBuffer.lean ====
section
/-! DEFINITION. The Priority Buffer operations (43_priority_buffer.md). -/

namespace Sys2Proof.Machine

/-- PB.BEGIN (R161). -/
def execPbBegin (ly : Byte) (s : State) : Host.Outcome State Fault Refusal :=
  .next ((s.beginPb ly).setRes 0#32)

/-- PB.WRITE (R162, R163). -/
def execPbWrite (x : Byte) (ci : BitVec 2) (prio : Bool) (s : State) : Host.Outcome State Fault Refusal :=
  .next ((s.writePb x ci prio).setRes 0#32)

/-- PB.READ (R164, R165). -/
def execPbRead (x ly : Byte) (s : State) : Host.Outcome State Fault Refusal :=
  match s.readPb x ly with
  | ((ci, prio), s') => .next (s'.setRes ((BitVec.ofBool prio ++ ci : BitVec 3).setWidth 32))

/-- PB.DISCARD (R166). -/
def execPbDiscard (s : State) : Host.Outcome State Fault Refusal :=
  .next (s.discardPb.setRes 0#32)

end Sys2Proof.Machine
end

