-- ==== Sys2Proof/Machine/Tile.lean ====
section
/-! DEFINITION. The Tile Decoder operations (42_tile_decoder.md). -/

namespace Sys2Proof.Machine

/-- TILE.ROWSEL (R141). -/
def execTileRowsel (row : BitVec 4) (tall yflip : Bool) (s : State) : Host.Outcome State Fault Refusal :=
  if spriteHeight tall ≤ row.toNat then .next (raiseFault .illegalOp s)
  else .next (s.setRes ((rowOffset row tall yflip).setWidth 32))

/-- TILE.FETCH (R142): the odd-offset test (R144) comes before the bank test (R143, R266). -/
def execTileFetch (tile : Byte) (bank : Bool) (off : BitVec 5) (s : State) : Host.Outcome State Fault Refusal :=
  if off.getLsbD 0 then .next (raiseFault .illegalOp s)
  else if bank && !s.cgb then .next (raiseFault .badBank s)
  else
    let row := s.fetchRow tile bank off
    .next (s.setRes ((row.2 ++ row.1 : BitVec 16).setWidth 32))

/-- TILE.PIXEL (R146). -/
def execTilePixel (b0 b1 : Byte) (c : BitVec 3) (xflip : Bool) (s : State) : Host.Outcome State Fault Refusal :=
  .next (s.setRes ((pixelIndex b0 b1 c xflip).setWidth 32))

end Sys2Proof.Machine
end

