-- ==== Sys2Proof/Machine/Dispatch.lean ====
section
/-! DEFINITION. Every instruction and its meaning, one arm each (R112). -/

namespace Sys2Proof.Machine

def exec (i : Instr) (s : State) : Host.Outcome State Fault Refusal :=
  match i with
  | .modeWr cgb bgpri => Sys2Proof.Machine.execModeWr cgb bgpri s
  | .mpalWr sel data => Sys2Proof.Machine.execMpalWr sel data s
  | .cpalWr isSprite pal ci rgb15 => Sys2Proof.Machine.execCpalWr isSprite pal ci rgb15 s
  | .statusRd => Sys2Proof.Machine.execStatusRd s
  | .palResolve mode isSprite sel ci => Sys2Proof.Machine.execPalResolve mode isSprite sel ci s
  | .palSplit rgb15 => Sys2Proof.Machine.execPalSplit rgb15 s
  | .tileRowsel row tall yflip => Sys2Proof.Machine.execTileRowsel row tall yflip s
  | .tileFetch tile bank off => Sys2Proof.Machine.execTileFetch tile bank off s
  | .tilePixel b0 b1 c xflip => Sys2Proof.Machine.execTilePixel b0 b1 c xflip s
  | .pbBegin ly => Sys2Proof.Machine.execPbBegin ly s
  | .pbWrite x ci prio => Sys2Proof.Machine.execPbWrite x ci prio s
  | .pbRead x ly => Sys2Proof.Machine.execPbRead x ly s
  | .pbDiscard => Sys2Proof.Machine.execPbDiscard s
  | .scRender ly tall => Sys2Proof.Machine.execScRender ly tall s
  | .fbWrite x y ch value => Sys2Proof.Machine.execFbWrite x y ch value s
  | .fbRead x y ch => Sys2Proof.Machine.execFbRead x y ch s

end Sys2Proof.Machine
end

