-- ==== Sys2Proof/Machine/Sequencer.lean ====
section
/-! DEFINITION. What one input does (R111, R264, R290), and how a command word comes to stand at the command port. -/

namespace Sys2Proof.Machine

/-- The step function of R111 on one command word, its tests in the order of R264: STATUS.RD first, then the halt, then
decoding. -/
def runCommand (w : Word) (s : State) : Host.Outcome State Fault Refusal :=
  if w = 0x1C000000#32 then exec .statusRd s
  else if s.halted then .next (haltedResult s)
  else
    match decode w with
    | .error _ => .next (raiseFault .illegalOp s)
    | .ok i => exec i s

/-- One input: a command, the reset input, or a write of the memory subsystem (R111). -/
def takeInput (e : Input) (s : State) : Host.Outcome State Fault Refusal :=
  match e with
  | .command w => runCommand w s
  | .reset => .next (resetBlock s)
  | .oamWrite off v => .next (s.writeOam off v)
  | .vramWrite bank a v => .next (s.writeVram bank a v)

/-- Takes the oldest waiting input; with none waiting the block holds its state and does nothing (R276). -/
def takeNextInput (s : State) : Host.Outcome State Fault Refusal :=
  match s.inbox with
  | [] => .next s
  | e :: rest => takeInput e { s with inbox := rest }

/-- Puts an input before all that wait. -/
def pushInput (e : Input) (s : State) : State := { s with inbox := e :: s.inbox }

/-- The command word of a table word of `nbits` bits, the bits above them 0 (R108). -/
def commandOfTableWord (nbits w : Nat) : Input := .command (BitVec.ofNat 32 (w % 2 ^ nbits))

end Sys2Proof.Machine
end

