-- ==== Sys2Proof/Machine/Step.lean ====
section
/-! DEFINITION. One step of the machine, and the host's way to place a command. -/

namespace Sys2Proof.Machine

/-- One step: the next waiting input (R111). Parameters that no machine of the spec has stop it (R302, log 9). -/
def step (s : State) : Host.Outcome State Fault Refusal :=
  if s.params.wf then takeNextInput s else .fault .badParameters

/-- `s` with the command of a table word placed so that the very next step runs it: at the front of the waiting inputs, the
block having no program memory (R21, log 1). -/
def State.withFetchWord (s : State) (nbits w : Nat) : State := pushInput (commandOfTableWord nbits w) s

end Sys2Proof.Machine
end

