-- ==== Sys2Proof/Machine/Assembler.lean ====
section
/-! DEFINITION. The text form of commands: assembler and disassembler (R109) and the two pseudo-instructions (R110). The block
never sees any of it. -/

namespace Sys2Proof

/-- The mnemonics of R102. -/
def mnemonicText : Opcode → String
  | .modeWr => "MODE.WR"
  | .mpalWr => "MPAL.WR"
  | .cpalWr => "CPAL.WR"
  | .statusRd => "STATUS.RD"
  | .palResolve => "PAL.RESOLVE"
  | .palSplit => "PAL.SPLIT"
  | .tileRowsel => "TILE.ROWSEL"
  | .tileFetch => "TILE.FETCH"
  | .tilePixel => "TILE.PIXEL"
  | .pbBegin => "PB.BEGIN"
  | .pbWrite => "PB.WRITE"
  | .pbRead => "PB.READ"
  | .pbDiscard => "PB.DISCARD"
  | .scRender => "SC.RENDER"
  | .fbWrite => "FB.WRITE"
  | .fbRead => "FB.READ"

/-- `PB.FILL ly, ci, prio` (R110): PB.BEGIN, then one PB.WRITE for each of the `screenW` columns. -/
def expandPbFill (screenW : Nat) (ly : Byte) (ci : BitVec 2) (prio : Bool) : List Instr :=
  .pbBegin ly :: (List.range screenW).map fun n => .pbWrite (BitVec.ofNat 8 n) ci prio

/-- `FB.PIXEL x, y, r, g, b` (R110). -/
def expandFbPixel (x y r g b : Byte) : List Instr :=
  [.fbWrite x y 0#2 r, .fbWrite x y 1#2 g, .fbWrite x y 2#2 b]

/-- The text before the first `c`, and the text after it if there is one. -/
def splitAtChar (c : Char) : List Char → List Char × Option (List Char)
  | [] => ([], none)
  | d :: t =>
    if d = c then ([], some t)
    else match splitAtChar c t with
      | (a, b) => (d :: a, b)

/-- The pieces of a text between the separators `c`. -/
def splitPieces (c : Char) : List Char → List (List Char)
  | [] => [[]]
  | d :: t =>
    match splitPieces c t with
    | [] => [[d]]
    | p :: ps => if d = c then [] :: p :: ps else (d :: p) :: ps

/-- A text without the spaces around it. -/
def trimSpaces (t : List Char) : List Char :=
  ((t.dropWhile (· == ' ')).reverse.dropWhile (· == ' ')).reverse

/-- The value of a digit, letters in either case. -/
def digitValue (c : Char) : Option Nat :=
  if '0' ≤ c ∧ c ≤ '9' then some (c.toNat - '0'.toNat)
  else if 'a' ≤ c ∧ c ≤ 'f' then some (c.toNat - 'a'.toNat + 10)
  else if 'A' ≤ c ∧ c ≤ 'F' then some (c.toNat - 'A'.toNat + 10)
  else none

/-- The number a digit string writes in a base, after the digits already read. -/
def digitsValue (base : Nat) : Nat → List Char → Option Nat
  | n, [] => some n
  | n, c :: t =>
    match digitValue c with
    | some d => if d < base then digitsValue base (base * n + d) t else none
    | none => none

/-- A value: decimal, `0x` hexadecimal or `0b` binary (R109). -/
def parseValue : List Char → Option Nat
  | [] => none
  | ['0', 'x'] => none
  | ['0', 'b'] => none
  | '0' :: 'x' :: t => digitsValue 16 0 t
  | '0' :: 'b' :: t => digitsValue 2 0 t
  | t => digitsValue 10 0 t

/-- One `name=value` pair, the name among the fields and the value within its width (log 12). -/
def parseOperand (fields : List OperandField) (t : List Char) : Option (OperandField × Nat) :=
  match splitAtChar '=' t with
  | (_, none) => none
  | (name, some value) =>
    match fields.find? fun f => f.name.toList == trimSpaces name, parseValue (trimSpaces value) with
    | some f, some v => if v < 2 ^ f.width then some (f, v) else none
    | _, _ => none

/-- The operands of a line, in any order, each name at most once (R109, log 12). -/
def parseOperands (fields : List OperandField) (t : List Char) : Option (List (OperandField × Nat)) :=
  if trimSpaces t = [] then some []
  else
    match (splitPieces ',' t).mapM (parseOperand fields) with
    | none => none
    | some ops => if (ops.map fun o => o.1.name).Nodup then some ops else none

/-- The value given to a name; an omitted operand is 0 (R109). -/
def operandValue (ops : List (OperandField × Nat)) (name : String) : Nat :=
  match ops.find? fun o => o.1.name == name with
  | some o => o.2
  | none => 0

/-- The operand fields of `PB.FILL` and `FB.PIXEL` (R110). -/
def pseudoFields : List OperandField :=
  [⟨"ly", 0, 8, false⟩, ⟨"ci", 0, 2, false⟩, ⟨"prio", 0, 1, false⟩]

/-- The operand fields of `FB.PIXEL` (R110). -/
def pixelFields : List OperandField :=
  [⟨"x", 0, 8, false⟩, ⟨"y", 0, 8, false⟩, ⟨"r", 0, 8, true⟩, ⟨"g", 0, 8, true⟩, ⟨"b", 0, 8, true⟩]

/-- The command word of an operation and its operands. -/
def assembleWord (o : Opcode) (ops : List (OperandField × Nat)) : Word :=
  ops.foldl (fun w p => w ||| (BitVec.ofNat 32 p.2 <<< p.1.lo)) (opcodeMatch o)

/-- Assembles one line into its commands: none for a line without a command, one for a command, several for a
pseudo-instruction (R109, R110). -/
def assembleLine (screenW : Nat) (line : List Char) : Option (List Instr) :=
  let text := trimSpaces (splitAtChar ';' line).1
  if text = [] then some []
  else
    let mnemonic := (splitAtChar ' ' text).1
    let rest := ((splitAtChar ' ' text).2).getD []
    if mnemonic = "PB.FILL".toList then
      (parseOperands pseudoFields rest).map fun ops =>
        expandPbFill screenW (BitVec.ofNat 8 (operandValue ops "ly")) (BitVec.ofNat 2 (operandValue ops "ci"))
          (operandValue ops "prio" == 1)
    else if mnemonic = "FB.PIXEL".toList then
      (parseOperands pixelFields rest).map fun ops =>
        expandFbPixel (BitVec.ofNat 8 (operandValue ops "x")) (BitVec.ofNat 8 (operandValue ops "y"))
          (BitVec.ofNat 8 (operandValue ops "r")) (BitVec.ofNat 8 (operandValue ops "g"))
          (BitVec.ofNat 8 (operandValue ops "b"))
    else
      match allOpcodes.find? fun o => (mnemonicText o).toList == mnemonic with
      | none => none
      | some o => (parseOperands (operandFields o) rest).map fun ops => [operandsOf o (assembleWord o ops)]

/-- An operand as the disassembler prints it (R109). -/
def operandText (w : Word) (f : OperandField) : List Char :=
  let v := w.toNat / 2 ^ f.lo % 2 ^ f.width
  f.name.toList ++ ['='] ++ if f.hex then ['0', 'x'] ++ Nat.toDigits 16 v else Nat.toDigits 10 v

/-- The text of an instruction: every operand, in the order of R103 (R109). -/
def disassemble (i : Instr) : List Char :=
  (mnemonicText i.opcode).toList ++
    match (operandFields i.opcode).map (operandText (encode i)) with
    | [] => []
    | p :: ps => ' ' :: p ++ (ps.map fun q => ',' :: ' ' :: q).flatten

end Sys2Proof
end

