-- ==== Sys2Proof/Safety.lean ====
section
/-! DEFINITION. What counts as a good state and a good run: the invariant every step keeps, the agents' rights (R275) and the
caller contract of 70_reset_and_hazards.md (R292, R295 to R299, R303). The block checks none of the contract (R274). -/

namespace Sys2Proof.Machine

/-- A key of the frame buffer's list names a channel that exists (R30, R220). -/
abbrev fbKeyOnFrame (p : Params) (k : Nat) : Prop :=
  k % 4 < 3 ∧ k / 4 % 256 < p.screenW ∧ k / 1024 < p.screenH

/-- What every state of a running machine satisfies: legal parameters (R302, U14), a cause code that can occur (R261, U4), one
Priority Buffer entry for each column, none live while closed and the tag written while open (R28, R161, R166), and the byte
lists in canonical form and inside their spaces (R50). -/
abbrev State.Inv (s : State) : Prop :=
  s.params.wf = true ∧
  s.fault.toNat ≤ 2 ∧
  s.pb.length = s.params.screenW ∧
  (s.pbOpen = false → ∀ e ∈ s.pb, e.valid = false) ∧
  (s.pbOpen = true → s.pbLySet = true) ∧
  s.fb.rising ∧ (∀ e ∈ s.fb, fbKeyOnFrame s.params e.1) ∧
  Memory.wf Config.oamBytes s.oam ∧
  Memory.wf Config.vramBytes s.vram0 ∧ Memory.wf Config.vramBytes s.vram1

/-- The premise of R297 for SC.RENDER on scanline `ly`, in its form "for all x, to be safe": the override holds, or the
Priority Buffer is open on `ly` with every entry valid. Under it no free value reaches the frame buffer (R165). -/
abbrev State.spriteReady (s : State) (ly : Byte) : Prop :=
  s.override = true ∨
  (s.pbOpen = true ∧ s.pbLy = ly ∧ s.pb.length = s.params.screenW ∧ ∀ e ∈ s.pb, e.valid = true)

/-- Where a command stream stands in the per-scanline sequence of R296. -/
inductive Phase where
  /-- No scanline is open. -/
  | between
  /-- After PB.BEGIN `ly`: the background pass (R297). -/
  | background (ly : Byte)
  /-- After SC.RENDER `ly`: until PB.DISCARD or the next PB.BEGIN (R298). -/
  | composed (ly : Byte)
  deriving DecidableEq, Repr

/-- The phase is a background pass, from a scanline's PB.BEGIN to its SC.RENDER. -/
def Phase.inBackground : Phase → Bool
  | .background _ => true
  | .between => false
  | .composed _ => false

/-- The agents of R275's table, and whoever drives the reset input, which the table does not name (R290, log 10). -/
inductive Agent where
  | scanlineDriver | backgroundRenderer
  /-- Inside the block: it issues nothing at the ports and calls operations within SC.RENDER. -/
  | spriteCompositor
  | memorySubsystem | displayLayer
  /-- Reset, from outside the command port, and nothing else (R290). -/
  | resetLine
  deriving DecidableEq, Repr

/-- What the scanline driver may issue (R275). -/
def driverMayIssue : Instr → Bool
  | .scRender _ _ | .pbBegin _ | .pbDiscard | .modeWr _ _ | .mpalWr _ _ | .cpalWr _ _ _ _ | .statusRd => true
  | .palResolve _ _ _ _ | .palSplit _ | .tileRowsel _ _ _ | .tileFetch _ _ _ | .tilePixel _ _ _ _ => true
  | .pbWrite _ _ _ | .pbRead _ _ | .fbWrite _ _ _ _ | .fbRead _ _ _ => false

/-- What the background renderer may issue (R275). Its "own pixels" are those of the row of its pass (R296, in
`Contract.command`); within the row the spec bounds them by nothing (log 10). -/
def rendererMayIssue : Instr → Bool
  | .pbWrite _ _ _ | .fbWrite _ _ _ _ => true
  | .palResolve _ _ _ _ | .palSplit _ | .tileRowsel _ _ _ | .tileFetch _ _ _ | .tilePixel _ _ _ _ => true
  | .modeWr _ _ | .mpalWr _ _ | .cpalWr _ _ _ _ | .statusRd | .pbBegin _ | .pbRead _ _ | .pbDiscard | .scRender _ _
  | .fbRead _ _ _ => false

/-- What the display layer may issue (R275); FB.WRITE "is not forbidden to it". -/
def displayMayIssue : Instr → Bool
  | .fbRead _ _ _ | .statusRd | .fbWrite _ _ _ _ => true
  | .modeWr _ _ | .mpalWr _ _ | .cpalWr _ _ _ _ | .palResolve _ _ _ _ | .palSplit _ | .tileRowsel _ _ _
  | .tileFetch _ _ _ | .tilePixel _ _ _ _ | .pbBegin _ | .pbWrite _ _ _ | .pbRead _ _ | .pbDiscard | .scRender _ _ => false

/-- What the Sprite Compositor may call (R275). -/
def compositorMayCall : Instr → Bool
  | .pbRead _ _ | .fbWrite _ _ _ _ => true
  | .palResolve _ _ _ _ | .palSplit _ | .tileRowsel _ _ _ | .tileFetch _ _ _ | .tilePixel _ _ _ _ => true
  | .modeWr _ _ | .mpalWr _ _ | .cpalWr _ _ _ _ | .statusRd | .pbBegin _ | .pbWrite _ _ _ | .pbDiscard | .scRender _ _
  | .fbRead _ _ _ => false

/-- Which agent may issue which command at the command port: the "may issue" column of R275. -/
def Agent.mayIssue (a : Agent) (i : Instr) : Bool :=
  match a with
  | .scanlineDriver => driverMayIssue i
  | .backgroundRenderer => rendererMayIssue i
  | .displayLayer => displayMayIssue i
  | .spriteCompositor | .memorySubsystem | .resetLine => false

/-- Which agent may call which operation from inside the block, within SC.RENDER (R275). -/
def Agent.mayCall (a : Agent) (i : Instr) : Bool :=
  match a with
  | .spriteCompositor => compositorMayCall i
  | .scanlineDriver | .backgroundRenderer | .memorySubsystem | .displayLayer | .resetLine => false

/-- Which agent may deliver which input: "may issue" of R275 for a command word, OAM and VRAM writes for the memory subsystem
alone (R31). A word that is no command stands in no agent's row. -/
def Agent.mayDeliver (a : Agent) (e : Input) : Bool :=
  match e with
  | .command w =>
    match decode w with
    | .ok i => a.mayIssue i
    | .error _ => false
  | .reset => a == .resetLine
  | .oamWrite _ _ => a == .memorySubsystem
  | .vramWrite _ _ _ => a == .memorySubsystem

/-- The word is a PB.WRITE. -/
def isPbWrite (w : Word) : Bool := opcodeOf w == some .pbWrite

/-- What an agent must not deliver in a phase although it may at other times: the "must not issue" column of R275. -/
def Agent.mustNotDeliver (a : Agent) (p : Phase) (e : Input) : Bool :=
  match a with
  | .backgroundRenderer =>
    match e with
    | .command w => isPbWrite w && !p.inBackground
    | .reset | .oamWrite _ _ | .vramWrite _ _ _ => false
  | .memorySubsystem =>
    match e with
    | .oamWrite _ _ | .vramWrite _ _ _ => p.inBackground
    | .command _ | .reset => false
  | .scanlineDriver | .spriteCompositor | .displayLayer | .resetLine => false

/-- An input keeps to its agent's row of R275. -/
def Agent.withinRow (a : Agent) (p : Phase) (e : Input) : Bool := a.mayDeliver e && !a.mustNotDeliver p e

/-- What the caller contract remembers of a command stream: its phase, and what has been written since reset of the block's
elements (R292 (1) and (2), R295) and of the memories (R292 (3)). -/
structure Contract where
  phase : Phase
  modeWritten : Bool
  mpalWritten : List (BitVec 1)
  cpalWritten : List (Fin 64)
  oamWritten : List (Fin 160)
  vramWritten : List (Bool × BitVec 16)
  deriving DecidableEq, Repr

/-- The contract right after reset: nothing written (R36), and the bytes of R292 (3) to be put "after each reset" too, although
reset leaves the memories as they are (R290, log 10). -/
def Contract.start : Contract := ⟨.between, false, [], [], [], []⟩

/-- A configuration or memory write is allowed: not between a scanline's PB.BEGIN and its SC.RENDER (R299). A pass that is given
up, by PB.DISCARD or another PB.BEGIN, has no SC.RENDER, and R299 says nothing of it; that a MODE.WR, MPAL.WR, CPAL.WR or memory
write in it is a breach all the same is DESIGN CHOICE, log 10. -/
def Contract.mayConfigure (k : Contract) : Bool := !k.phase.inBackground

/-- Sprite `i` is visible on scanline `ly` (R184). -/
def State.spriteOnLine (s : State) (ly : Byte) (tall : Bool) (i : Nat) : Bool :=
  spriteVisible tall (spriteTop (s.oamByte (4 * i))) ly

/-- The bank and the address of the first byte of the tile row sprite `i` selects on scanline `ly` (R185 to R188). -/
def State.spriteRowAt (s : State) (ly : Byte) (tall : Bool) (i : Nat) : Bool × BitVec 16 :=
  let attr := s.oamByte (4 * i + 3)
  (s.bankOf (attrBank attr),
    tileAddress s.params (spriteTile tall (s.oamByte (4 * i + 2)))
      (rowOffset (spriteRow (spriteTop (s.oamByte (4 * i))) ly) tall (attrYflip attr)))

/-- The memory subsystem has put bytes in all of OAM and in both bytes of every tile row a visible sprite selects on the
scanline (R292 (3)). -/
def Contract.memoryReady (k : Contract) (s : State) (ly : Byte) (tall : Bool) : Bool :=
  (List.finRange 160).all k.oamWritten.contains &&
    spriteOrder.all fun i =>
      !s.spriteOnLine ly tall i ||
        (k.vramWritten.contains (s.spriteRowAt ly tall i) &&
          k.vramWritten.contains ((s.spriteRowAt ly tall i).1, (s.spriteRowAt ly tall i).2 + 1#16))

/-- The palettes the sprites visible on the scanline can select have been written (R292 (2), tested per SC.RENDER, log 10). -/
def Contract.palettesReady (k : Contract) (s : State) (ly : Byte) (tall : Bool) : Bool :=
  spriteOrder.all fun i =>
    !s.spriteOnLine ly tall i ||
      if s.cgb then
        [1#2, 2#2, 3#2].all fun ci =>
          k.cpalWritten.contains (cpalIndex true (attrCpal (s.oamByte (4 * i + 3))) ci)
      else k.mpalWritten.contains (attrPalsel (s.oamByte (4 * i + 3)))

/-- SC.RENDER of `ly` keeps the contract: it ends the background pass of its scanline (R296, R297) with all it reads written
(R292, R295). A second SC.RENDER of the scanline with no PB.BEGIN between has no pass to end, so it is counted a breach: DESIGN
CHOICE, log 10, since R296 shows one SC.RENDER and R300 calls a repeat harmless. -/
abbrev Contract.mayRender (k : Contract) (s : State) (ly : Byte) (tall : Bool) : Prop :=
  k.phase = .background ly ∧ k.modeWritten = true ∧ k.palettesReady s ly tall = true ∧ k.memoryReady s ly tall = true ∧
  s.spriteReady ly

/-- An agent's FB.WRITE to row `y` keeps the contract: the background renderer's belongs in the background pass of that row
(R296) and so comes before its SC.RENDER (R297). That it needs the pass also for a row never rendered is DESIGN CHOICE, log 10.
R275 forbids the others that may issue it no row. -/
def Contract.mayWriteRow (k : Contract) (a : Agent) (y : Byte) : Bool :=
  match a with
  | .backgroundRenderer => k.phase == .background y
  | .scanlineDriver | .spriteCompositor | .memorySubsystem | .displayLayer | .resetLine => true

/-- One command of an agent under R292 and R295 to R299, in the state it meets: the contract after it, or nothing where it
breaks one of them. -/
def Contract.command (k : Contract) (a : Agent) (s : State) (i : Instr) : Option Contract :=
  match i with
  | .modeWr _ _ => if k.mayConfigure then some { k with modeWritten := true } else none
  | .mpalWr sel _ => if k.mayConfigure then some { k with mpalWritten := sel :: k.mpalWritten } else none
  | .cpalWr l p ci _ =>
    if k.mayConfigure then some { k with cpalWritten := cpalIndex l p ci :: k.cpalWritten } else none
  | .palResolve mode l sel ci =>
    let written :=
      if mode then k.cpalWritten.contains (cpalIndex l sel ci) else k.mpalWritten.contains (sel.extractLsb' 0 1)
    if written || !i.wellFormed then some k else none
  | .tileFetch _ _ _ => if k.modeWritten then some k else none
  | .pbBegin ly => some { k with phase := .background ly }
  | .pbWrite _ _ _ => if k.phase.inBackground then some k else none
  | .pbDiscard => some { k with phase := .between }
  | .scRender ly tall => if k.mayRender s ly tall then some { k with phase := .composed ly } else none
  | .fbWrite _ y _ _ => if k.mayWriteRow a y then some k else none
  | .statusRd | .palSplit _ | .tileRowsel _ _ _ | .tilePixel _ _ _ _ | .pbRead _ _ | .fbRead _ _ _ => some k

/-- One input under R292 and R295 to R299. A command of a halted block and a word that is no command change nothing (R263,
R264), so they leave the contract as it is. -/
def Contract.sequence (k : Contract) (a : Agent) (s : State) (e : Input) : Option Contract :=
  match e with
  | .command w =>
    if s.halted then some k
    else
      match decode w with
      | .ok i => k.command a s i
      | .error _ => some k
  | .reset => some Contract.start
  | .oamWrite off _ => if k.mayConfigure then some { k with oamWritten := off :: k.oamWritten } else none
  | .vramWrite bank ad _ =>
    if k.mayConfigure ∨ ad.toNat < s.params.tileDataBase.toNat ∨ s.params.tileDataBase.toNat + 4096 ≤ ad.toNat then
      some { k with vramWritten := (bank, ad) :: k.vramWritten }
    else none

/-- One input of an agent under the whole caller contract (R303): the agent keeps to its row of R275, and the input breaks
none of R292 and R295 to R299. The row forbids the memory subsystem every write in a background pass, also one to VRAM bytes no
sprite can select, which R299 alone would let pass. -/
def Contract.input (k : Contract) (a : Agent) (s : State) (e : Input) : Option Contract :=
  if a.withinRow k.phase e then k.sequence a s e else none

/-- A stream of inputs, each with its agent, one after the other (R275: the agents take turns): the contract and the state
after it, or nothing where an input breaks the contract. -/
def Contract.run : Contract → State → List (Agent × Input) → Option (Contract × State)
  | k, s, [] => some (k, s)
  | k, s, (a, e) :: rest =>
    match k.input a s e, takeInput e s with
    | some k', .next t => Contract.run k' t rest
    | some _, .fault _ => none
    | some _, .refused _ => none
    | none, _ => none

end Sys2Proof.Machine
end

