-- ==== Sys2Proof/Certificates/Slice0/Obligations.lean ====
section
/-! DEFINITION. The statements for the provers, and the spec-side functions they are stated with. -/

open Sys2Proof Sys2Proof.Machine

/-! ## The spec's tables and formulas, written apart from the model -/

/-- The rows of R103: the operation, its mask and its match. -/
def Sys2Proof.Spec.rows : List (Opcode × Word × Word) :=
  [(.modeWr, 0xFFFFFFFC#32, 0x04000000#32), (.mpalWr, 0xFFFFFE00#32, 0x0C000000#32),
   (.cpalWr, 0xFFE00000#32, 0x14000000#32), (.statusRd, 0xFFFFFFFF#32, 0x1C000000#32),
   (.palResolve, 0xFFFFFF80#32, 0x20000000#32), (.palSplit, 0xFFFF8000#32, 0x24000000#32),
   (.tileRowsel, 0xFFFFFFC0#32, 0x40000000#32), (.tileFetch, 0xFFFFC000#32, 0x44000000#32),
   (.tilePixel, 0xFFF00000#32, 0x48000000#32), (.pbBegin, 0xFFFFFF00#32, 0x60000000#32),
   (.pbWrite, 0xFFFFF800#32, 0x64000000#32), (.pbRead, 0xFFFF0000#32, 0x68000000#32),
   (.pbDiscard, 0xFFFFFFFF#32, 0x6C000000#32), (.scRender, 0xFFFFFE00#32, 0x80000000#32),
   (.fbWrite, 0xFC000000#32, 0xA0000000#32), (.fbRead, 0xFFFC0000#32, 0xA4000000#32)]

/-- The sixteen assigned values of `op` (R102). -/
def Sys2Proof.Spec.assignedOps : List Nat :=
  [0x01, 0x03, 0x05, 0x07, 0x08, 0x09, 0x10, 0x11, 0x12, 0x18, 0x19, 0x1A, 0x1B, 0x20, 0x28, 0x29]

/-- The data bits of a result word, the "result fields" column of R103. -/
def Sys2Proof.Spec.resultBits : Instr → Word
  | .statusRd => 0x000FFF07#32
  | .palResolve mode _ _ _ => if mode then 0x00007FFF#32 else 0x00000003#32
  | .palSplit _ => 0x00FFFFFF#32
  | .tileRowsel _ _ _ => 0x0000001F#32
  | .tileFetch _ _ _ => 0x0000FFFF#32
  | .tilePixel _ _ _ _ => 0x00000003#32
  | .pbRead _ _ => 0x00000007#32
  | .fbRead _ _ _ => 0x000000FF#32
  | .modeWr _ _ | .mpalWr _ _ | .cpalWr _ _ _ _ | .pbBegin _ | .pbWrite _ _ _ | .pbDiscard | .scRender _ _
  | .fbWrite _ _ _ _ => 0x00000000#32

/-- The height of a sprite (R184). -/
def Sys2Proof.Spec.height (tall : Bool) : Nat := if tall then 16 else 8

/-- The screen row of a sprite's top, `oy` less 16 modulo 256 (R183). -/
def Sys2Proof.Spec.top (s : State) (i : Nat) : Nat := ((s.oamByte (4 * i)).toNat + 240) % 256

/-- The screen column of a sprite's left edge, `ox` less 8 modulo 256 (R183). -/
def Sys2Proof.Spec.left (s : State) (i : Nat) : Nat := ((s.oamByte (4 * i + 1)).toNat + 248) % 256

/-- Sprite `i` is visible on `ly` (R184). -/
abbrev Sys2Proof.Spec.visibleOn (s : State) (ly : Byte) (tall : Bool) (i : Nat) : Prop :=
  Spec.top s i ≤ ly.toNat ∧ ly.toNat < Spec.top s i + Spec.height tall

/-- The colour index of column `c` of visible sprite `i` (R185 to R189). -/
def Sys2Proof.Spec.spriteIndex (s : State) (ly : Byte) (tall : Bool) (i c : Nat) : Nat :=
  let tile := (s.oamByte (4 * i + 2)).toNat
  let attr := s.oamByte (4 * i + 3)
  let row := ly.toNat - Spec.top s i
  let row' := if attr.getLsbD 6 then Spec.height tall - 1 - row else row
  let tile' := if tall then tile - tile % 2 else tile
  let bank := s.mode.getLsbD 0 && attr.getLsbD 3
  let a := s.params.tileDataBase.toNat + 16 * tile' + 2 * row'
  let b0 := (s.vramByte bank (BitVec.ofNat 16 a)).toNat
  let b1 := (s.vramByte bank (BitVec.ofNat 16 (a + 1))).toNat
  let k := if attr.getLsbD 5 then c else 7 - c
  2 * (b1 / 2 ^ k % 2) + b0 / 2 ^ k % 2

/-- The pixel of sprite `i` at column `x` is suppressed (R191, R192), the buffer's entry there being `e`. -/
abbrev Sys2Proof.Spec.suppressedBy (s : State) (i : Nat) (e : PbEntry) : Prop :=
  ¬ (s.mode.getLsbD 0 = true ∧ s.mode.getLsbD 1 = false) ∧
  (((s.oamByte (4 * i + 3)).getLsbD 7 = true ∧ e.ci ≠ 0#2) ∨ (s.mode.getLsbD 0 = true ∧ e.prio = true))

/-- The value of channel `ch` of a shown pixel of sprite `i` with colour index `ci` (R193, R194). -/
def Sys2Proof.Spec.channelValue (s : State) (i ci : Nat) (ch : BitVec 2) : Byte :=
  let attr := s.oamByte (4 * i + 3)
  if s.mode.getLsbD 0 then
    let rgb := s.cpalAt true (attr.extractLsb' 0 3) (BitVec.ofNat 2 ci)
    (s.params.expand5.toList[rgb.toNat / 32 ^ ch.toNat % 32]?).getD 0#8
  else BitVec.ofNat 8 ((s.mpalAt (attr.extractLsb' 4 1)).toNat / 4 ^ ci % 4)

/-- A visible sprite has a pixel at column `x` of scanline `ly` that is not transparent (R184, R189, R190). -/
abbrev Sys2Proof.Spec.touched (s : State) (ly : Byte) (tall : Bool) (x : Byte) : Prop :=
  ∃ i, i < 40 ∧ Spec.visibleOn s ly tall i ∧ (x.toNat + 256 - Spec.left s i) % 256 < 8 ∧
    Spec.spriteIndex s ly tall i ((x.toNat + 256 - Spec.left s i) % 256) ≠ 0

/-- What R297 asks for at column `x` of scanline `ly`: the override, or a live Priority Buffer entry. -/
abbrev Sys2Proof.Spec.entryReady (s : State) (ly x : Byte) : Prop :=
  (s.mode.getLsbD 0 = true ∧ s.mode.getLsbD 1 = false) ∨
  (s.pbOpen = true ∧ s.pbLy = ly ∧ ∃ e, s.pb[x.toNat]? = some e ∧ e.valid = true)

/-- Runs a list of commands, one after the other, as far as each answers a next state. -/
def Sys2Proof.Spec.runAll : List Instr → State → Option State
  | [], s => some s
  | i :: is, s =>
    match exec i s with
    | .next t => Spec.runAll is t
    | .fault _ => none
    | .refused _ => none

/-- What sprite `i` puts at column `x` of scanline `ly`: the colour index of its pixel there, if it is visible and has a pixel
there that is neither transparent nor suppressed. -/
def Sys2Proof.Spec.shownIndex (s : State) (ly : Byte) (tall : Bool) (x : Byte) (i : Nat) : Option Nat :=
  let c := (x.toNat + 256 - Spec.left s i) % 256
  let ci := Spec.spriteIndex s ly tall i c
  let e := (s.pb[x.toNat]?).getD ⟨false, 0#2, false⟩
  if Spec.visibleOn s ly tall i ∧ c < 8 ∧ ci ≠ 0 ∧ ¬ Spec.suppressedBy s i e then some ci else none

/-- The lowest-indexed sprite that shows a pixel at column `x` of scanline `ly`, with that pixel's colour index (R198). -/
def Sys2Proof.Spec.winner (s : State) (ly : Byte) (tall : Bool) (x : Byte) : Option (Nat × Nat) :=
  (List.range 40).findSome? fun i => (Spec.shownIndex s ly tall x i).map fun ci => (i, ci)

/-- The frame-buffer channel exists (R220). -/
abbrev Sys2Proof.Spec.onFrame (s : State) (x y : Byte) (ch : BitVec 2) : Prop :=
  x.toNat < s.params.screenW ∧ y.toNat < s.params.screenH ∧ ch.toNat < 3

/-- The state after a fault raised in a state that is not halted (R263). -/
def Sys2Proof.Spec.faulted (s : State) (code : BitVec 4) : State :=
  { s with fault := code, res := 0x80000000#32 ||| code.setWidth 32 }

/-- SC.RENDER completes and leaves FAULT as it is, so that no fault of the operations it calls is raised in it (R201). -/
abbrev Sys2Proof.Spec.renderKeepsFault (s : State) : Prop :=
  ∀ (ly : Byte) (tall : Bool), ∃ t, exec (.scRender ly tall) s = .next t ∧ t.fault = s.fault

/-! ## Encoding -/

/-- Decode and encode agree on every instruction, with every operand at every value. -/
def Obligations.DecodeOfEncodeIsTheInstruction : Prop :=
  ∀ i : Instr, decode (encode i) = .ok i

/-- A word has one reading: one that decodes is the encoding of what it decodes to. -/
def Obligations.DecodedWordIsItsEncoding : Prop :=
  ∀ (w : Word) (i : Instr), decode w = .ok i → encode i = w

/-- R103: a word is the named command exactly when `w & mask = match`. -/
def Obligations.CommandExactlyWhenMaskMatches : Prop :=
  ∀ row ∈ Spec.rows, ∀ w : Word, (∃ i, decode w = .ok i ∧ i.opcode = row.1) ↔ w &&& row.2.1 = row.2.2

/-- Words written out from R103's fields decode to the instructions they stand for. -/
def Obligations.SampleWordsDecode : Prop :=
  decode 0x04000001#32 = .ok (.modeWr true false) ∧
  decode 0x14177C1F#32 = .ok (.cpalWr true 3#3 2#2 0x7C1F#15) ∧
  decode 0x2000006E#32 = .ok (.palResolve true true 3#3 2#2) ∧
  decode 0x44001102#32 = .ok (.tileFetch 2#8 true 8#5) ∧
  decode 0x6400040B#32 = .ok (.pbWrite 11#8 0#2 true) ∧
  decode 0x80000115#32 = .ok (.scRender 21#8 true) ∧
  decode 0xA2028F9F#32 = .ok (.fbWrite 159#8 143#8 2#2 0x80#8)

/-- R105: a command whose `op` is not assigned raises ILLEGAL_OP and does nothing else. -/
def Obligations.UnassignedOpcodeFaults : Prop :=
  ∀ (s : State) (w : Word) (rest : List Input),
    s.params.wf = true → s.inbox = .command w :: rest → s.fault = 0#4 →
    w.toNat / 2 ^ 26 ∉ Spec.assignedOps →
    step s = .next (Spec.faulted { s with inbox := rest } 1#4)

/-- R104: a command whose `op` is assigned and which has a reserved bit set raises ILLEGAL_OP and does nothing else. -/
def Obligations.ReservedBitFaults : Prop :=
  ∀ (s : State) (w : Word) (rest : List Input) (row : Opcode × Word × Word),
    s.params.wf = true → s.inbox = .command w :: rest → s.fault = 0#4 →
    row ∈ Spec.rows → w.toNat / 2 ^ 26 = row.2.2.toNat / 2 ^ 26 → w &&& row.2.1 ≠ row.2.2 →
    step s = .next (Spec.faulted { s with inbox := rest } 1#4)

/-- R106: the reserved operand values of three commands raise ILLEGAL_OP; no well-formed command raises it in its meaning. -/
def Obligations.ReservedOperandsAreWhatFaultsIllegal : Prop :=
  ∀ (i : Instr) (s : State), s.fault = 0#4 →
    (i.wellFormed = false ↔
      ((∃ ci isSprite sel, i = .palResolve false isSprite sel ci ∧ (2 ≤ sel.toNat ∨ isSprite = false)) ∨
       (∃ row yflip, i = .tileRowsel row false yflip ∧ 8 ≤ row.toNat) ∨
       (∃ tile bank off, i = .tileFetch tile bank off ∧ off.toNat % 2 = 1))) ∧
    (i.wellFormed = false → exec i s = .next (Spec.faulted s 1#4)) ∧
    (i.wellFormed = true → ∃ t, exec i s = .next t ∧ t.fault ≠ 1#4)

/-! ## The step -/

/-- A step runs the decoded command: unless the block is halted (STATUS.RD runs then too), the step is `exec` of the
instruction on the state with the word taken from the inbox. -/
def Obligations.StepRunsDecodedCommand : Prop :=
  ∀ (s : State) (w : Word) (rest : List Input) (i : Instr),
    s.params.wf = true → s.inbox = .command w :: rest → decode w = .ok i → (s.fault = 0#4 ∨ i = .statusRd) →
    step s = exec i { s with inbox := rest }

/-- R264: the tests at the start of every command, in their order: STATUS.RD runs; a halted block does nothing and returns
`0x80000000 | zext_32(FAULT)`; any other word is decoded and runs, or faults. While halted FAULT stays. -/
def Obligations.HaltBlocksAllButStatusRead : Prop :=
  ∀ (s : State) (w : Word) (rest : List Input), s.params.wf = true → s.inbox = .command w :: rest →
    (w = 0x1C000000#32 → step s = exec .statusRd { s with inbox := rest }) ∧
    (w ≠ 0x1C000000#32 → s.fault ≠ 0#4 →
      step s = .next { s with inbox := rest, res := 0x80000000#32 ||| s.fault.setWidth 32 }) ∧
    (w ≠ 0x1C000000#32 → s.fault = 0#4 →
      match decode w with
      | .ok i => step s = exec i { s with inbox := rest }
      | .error _ => step s = .next (Spec.faulted { s with inbox := rest } 1#4)) ∧
    (s.fault ≠ 0#4 → ∃ t, step s = .next t ∧ t.fault = s.fault)

/-- R263: a command that changes FAULT met FAULT = 0 and changes nothing else, its result reporting the new FAULT; and which
fault there is follows from the command word and MODE.CGB alone. -/
def Obligations.FaultsArePrecise : Prop :=
  ∀ (s t : State) (w : Word) (rest : List Input), s.inbox = .command w :: rest → step s = .next t →
    (t.fault ≠ s.fault → s.fault = 0#4 ∧ t = Spec.faulted { s with inbox := rest } t.fault) ∧
    ∀ (s' t' : State) (rest' : List Input), s'.inbox = .command w :: rest' → step s' = .next t' →
      s'.mode.getLsbD 0 = s.mode.getLsbD 0 → s'.fault = s.fault → t'.fault = t.fault

/-- R264, R265: FAULT keeps the first cause over every input but reset, which clears it. -/
def Obligations.FirstCauseIsKeptUntilReset : Prop :=
  ∀ s t : State, step s = .next t →
    (s.fault ≠ 0#4 → s.inbox.head? ≠ some .reset → t.fault = s.fault) ∧
    (s.inbox.head? = some .reset → t.fault = 0#4)

/-- R101: bit 31 of the result word tells a fault or a halt, with FAULT in bits 3:0; any other result has only the data bits
of R103. -/
def Obligations.ResultWordTellsFaultOrData : Prop :=
  ∀ (s t : State) (w : Word) (rest : List Input),
    s.inbox = .command w :: rest → step s = .next t →
    ((t.fault ≠ 0#4 ∧ w ≠ 0x1C000000#32) → t.res = BitVec.ofNat 32 (2 ^ 31 + t.fault.toNat)) ∧
    (¬ (t.fault ≠ 0#4 ∧ w ≠ 0x1C000000#32) →
      ∃ i, decode w = .ok i ∧ t.res &&& Spec.resultBits i = t.res ∧ t.res.getLsbD 31 = false)

/-- R35: the reset input clears FAULT, closes the Priority Buffer and leaves no entry live. -/
def Obligations.ResetInputLeavesBlockIdle : Prop :=
  ∀ (s : State) (rest : List Input), s.params.wf = true → s.inbox = .reset :: rest →
    ∃ t, step s = .next t ∧ t.fault = 0#4 ∧ t.pbOpen = false ∧ t.pb.length = s.params.screenW ∧
      ∀ e ∈ t.pb, e.valid = false

/-- R290: the reset input does not touch OAM and VRAM, and no register of the block survives it: two states that differ in MODE,
MPAL, CPAL, PB_LY, the Priority Buffer, FAULT, the frame buffer and the marks of log 4 alone step to one state. What is left
unspecified counts as unwritten (R36): the frame buffer (log 6), and in STATUS.RD the mode flags and the tag (log 4). The
parameters (log 8), the waiting inputs (log 1) and the last result word (log 2) are not the block's registers and stay, and the
unknown reset values come from the count of free values (log 3, log 5). -/
def Obligations.ResetInputKeepsMemoriesAndForgetsRegisters : Prop :=
  ∀ (s : State) (rest : List Input), s.params.wf = true → s.inbox = .reset :: rest →
    (∃ t, step s = .next t ∧ t.oam = s.oam ∧ t.vram0 = s.vram0 ∧ t.vram1 = s.vram1 ∧
      (∀ x y ch, t.fbAt x y ch = none) ∧ t.modeSet = false ∧ t.pbLySet = false ∧ t.params = s.params ∧ t.res = s.res ∧
      t.inbox = rest) ∧
    ∀ s' : State, s'.params = s.params → s'.oam = s.oam → s'.vram0 = s.vram0 → s'.vram1 = s.vram1 → s'.res = s.res →
      s'.freeCount = s.freeCount → s'.inbox = s.inbox → step s' = step s

/-- R62: a write of the memory subsystem to OAM is what the next read of that byte returns; every other byte and the whole
block stay. -/
def Obligations.OamWriteIsSeenAndNothingElse : Prop :=
  ∀ (s : State) (off : Fin 160) (v : Byte) (rest : List Input),
    s.params.wf = true → s.oam.rising → s.inbox = .oamWrite off v :: rest →
    ∃ t, step s = .next t ∧ t.oamByte off.val = v ∧ (∀ a, a ≠ off.val → t.oamByte a = s.oamByte a) ∧
      t = { s with oam := t.oam, inbox := rest }

/-- R62: the same of VRAM, and the other bank stays. -/
def Obligations.VramWriteIsSeenAndNothingElse : Prop :=
  ∀ (s : State) (bank : Bool) (a : BitVec 16) (v : Byte) (rest : List Input),
    s.params.wf = true → s.vram0.rising → s.vram1.rising → s.inbox = .vramWrite bank a v :: rest →
    ∃ t, step s = .next t ∧ t.vramByte bank a = v ∧
      (∀ b a', b ≠ bank ∨ a' ≠ a → t.vramByte b a' = s.vramByte b a') ∧
      t = { s with vram0 := t.vram0, vram1 := t.vram1, inbox := rest }

/-- With no input waiting the block holds its state (R276; the queue is log 1), and parameters that no machine of the spec has
stop it (R302, U14; log 9). -/
def Obligations.StepWithoutInputOrMachine : Prop :=
  ∀ s : State,
    (s.params.tileDataBase.toNat + 4111 ≤ 0xFFFF ∧ s.params.screenW ≤ 256 ∧ s.params.screenH ≤ 256 →
      s.inbox = [] → step s = .next s) ∧
    (¬ (s.params.tileDataBase.toNat + 4111 ≤ 0xFFFF ∧ s.params.screenW ≤ 256 ∧ s.params.screenH ≤ 256) →
      step s = .fault .badParameters)

/-! ## Invariants and whole-machine rules -/

/-- R35: right after reset the block is not halted, the Priority Buffer is closed and no entry is live. -/
def Obligations.ResetStateIsIdle : Prop :=
  State.reset.fault = 0#4 ∧ State.reset.pbOpen = false ∧ State.reset.pb.length = State.reset.params.screenW ∧
  ∀ e ∈ State.reset.pb, e.valid = false

/-- Every step keeps the invariant. -/
def Obligations.StepKeepsInvariant : Prop :=
  ∀ s t : State, s.Inv → step s = .next t → t.Inv

/-- The invariant holds after reset. -/
def Obligations.ResetMeetsInvariant : Prop := State.reset.Inv

/-- R34: which command may write which element of state. -/
def Obligations.OnlyTheListedOperationsWriteEachElement : Prop :=
  ∀ (s t : State) (i : Instr), exec i s = .next t →
    (t.mode ≠ s.mode → i.opcode = .modeWr) ∧
    (t.mpal ≠ s.mpal → i.opcode = .mpalWr) ∧
    (t.cpal ≠ s.cpal → i.opcode = .cpalWr) ∧
    (t.pbOpen ≠ s.pbOpen → i.opcode = .pbBegin ∨ i.opcode = .pbDiscard) ∧
    (t.pbLy ≠ s.pbLy → i.opcode = .pbBegin) ∧
    (t.pb ≠ s.pb → i.opcode = .pbBegin ∨ i.opcode = .pbWrite ∨ i.opcode = .pbDiscard) ∧
    (t.fb ≠ s.fb → i.opcode = .fbWrite ∨ i.opcode = .scRender) ∧
    (t.fault ≠ s.fault → i.opcode = .palResolve ∨ i.opcode = .tileRowsel ∨ i.opcode = .tileFetch) ∧
    t.oam = s.oam ∧ t.vram0 = s.vram0 ∧ t.vram1 = s.vram1 ∧ t.params = s.params ∧ t.inbox = s.inbox

/-- R112: the operations that write nothing change nothing but the result word, the count of free values drawn (log 5), and
FAULT by faulting (R263): only PAL.RESOLVE, TILE.ROWSEL and TILE.FETCH change it, from 0, to 1, or TILE.FETCH to 2, and then
change nothing else. -/
def Obligations.QueriesChangeNoState : Prop :=
  ∀ (s t : State) (i : Instr), exec i s = .next t →
    i.opcode ∈ [.statusRd, .palResolve, .palSplit, .tileRowsel, .tileFetch, .tilePixel, .pbRead, .fbRead] →
    t = { s with res := t.res, fault := t.fault, freeCount := t.freeCount } ∧
    (t.fault ≠ s.fault →
      i.opcode ∈ [.palResolve, .tileRowsel, .tileFetch] ∧ s.fault = 0#4 ∧ t = Spec.faulted s t.fault ∧
      (t.fault = 1#4 ∨ (t.fault = 2#4 ∧ i.opcode = .tileFetch)))

/-! ## The agents and the caller contract -/

/-- R275: what an agent that keeps to its "may issue" column can write. Only the memory subsystem's step writes OAM and VRAM, and
it writes nothing of the block; the background renderer's writes the Priority Buffer and the frame buffer; the display layer's
the frame buffer; the Sprite Compositor has no step of its own; and no agent but the renderer makes a Priority Buffer entry.
(Every step takes its input, log 1, and may write the result word and the count of free values, log 2 and 5.) -/
def Obligations.AgentsWriteOnlyTheirElements : Prop :=
  ∀ (s t : State) (a : Agent) (e : Input) (rest : List Input),
    s.inbox = e :: rest → a.mayDeliver e = true → step s = .next t →
    a ≠ .spriteCompositor ∧
    (a ≠ .memorySubsystem → t.oam = s.oam ∧ t.vram0 = s.vram0 ∧ t.vram1 = s.vram1) ∧
    (a = .memorySubsystem → t = { s with inbox := rest, oam := t.oam, vram0 := t.vram0, vram1 := t.vram1 }) ∧
    (a = .backgroundRenderer → t = { s with inbox := rest, pb := t.pb, fb := t.fb, fault := t.fault, res := t.res }) ∧
    (a = .displayLayer → t = { s with inbox := rest, fb := t.fb, res := t.res, freeCount := t.freeCount }) ∧
    (a ≠ .backgroundRenderer →
      ∀ (x : Nat) (p : PbEntry), t.pb[x]? = some p → p.valid = true → s.pb[x]? = some p)

/-- R275, the Sprite Compositor's row: an operation it may call writes nothing of the Priority Buffer, the palettes, MODE, OAM
or VRAM. (The count of free values is the model's own, log 5.) -/
def Obligations.CompositorCallsWriteOnlyTheFrame : Prop :=
  ∀ (s t : State) (i : Instr), Agent.spriteCompositor.mayCall i = true → exec i s = .next t →
    t = { s with fb := t.fb, fault := t.fault, res := t.res, freeCount := t.freeCount }

/-- R299: from a scanline's PB.BEGIN to its SC.RENDER an input that keeps the contract leaves MODE, both monochrome palettes,
every colour palette entry, OAM and the VRAM bytes a sprite can select as they are. Two clauses are the model's choice (DESIGN
CHOICE, log 10). All of both VRAM banks stays, bytes no sprite can select included: R275's bar on the memory subsystem "between
a scanline's BG pass and its sprite pass" is taken to cover every write from PB.BEGIN on. And all stays also in a pass that is
later given up and has no SC.RENDER. -/
def Obligations.BackgroundPassFreezesWhatSpritesRead : Prop :=
  ∀ (k k' : Contract) (a : Agent) (s t : State) (e : Input) (rest : List Input),
    s.inbox = e :: rest → k.phase.inBackground = true → k'.phase.inBackground = true → k.input a s e = some k' →
    step s = .next t →
    t.mode = s.mode ∧ t.mpal = s.mpal ∧ t.cpal = s.cpal ∧ t.oam = s.oam ∧ t.vram0 = s.vram0 ∧ t.vram1 = s.vram1

/-- R303, R296, R297: an SC.RENDER that keeps the contract comes from the scanline driver (R275), completes, and paints on the
whole row the picture of the sprite pass (R181 to R195, R198), with no premise left on any pixel. That it stands in the
background pass of its scanline and ends it holds because the model counts a second SC.RENDER with no PB.BEGIN between as a
breach: the model's choice (DESIGN CHOICE, log 10), R296 showing one SC.RENDER and R300 calling a repeat harmless. -/
def Obligations.ContractRenderPaintsThePicture : Prop :=
  ∀ (k k' : Contract) (a : Agent) (s : State) (w : Word) (rest : List Input) (ly : Byte) (tall : Bool),
    s.params.wf = true → s.inbox = .command w :: rest → s.fault = 0#4 → decode w = .ok (.scRender ly tall) →
    k.input a s (.command w) = some k' →
    a = .scanlineDriver ∧ k.phase = .background ly ∧ k'.phase = .composed ly ∧
    ∃ t, step s = .next t ∧
      ∀ (x : Byte) (ch : BitVec 2), Spec.onFrame s x ly ch →
        t.fbAt x ly ch =
          match Spec.winner s ly tall x with
          | some (i, ci) => some (Spec.channelValue s i ci ch)
          | none => s.fbAt x ly ch

/-- R292 (3): an SC.RENDER that keeps the contract reads only memory the memory subsystem has written since reset. With any other
OAM and VRAM that agree with the machine's on the bytes in the contract's record, the step is the same: the 0 that the model
lets an unwritten byte read as (log 7) does not reach the picture. That these bytes are asked for again after each reset, which
leaves the memories as they are, is R292's "after each reset" taken at its word (log 10). -/
def Obligations.ContractRenderReadsOnlyWrittenMemory : Prop :=
  ∀ (k k' : Contract) (a : Agent) (s : State) (w : Word) (rest : List Input) (ly : Byte) (tall : Bool)
    (oam' vram0' vram1' : Memory),
    s.params.wf = true → s.inbox = .command w :: rest → s.fault = 0#4 → decode w = .ok (.scRender ly tall) →
    k.input a s (.command w) = some k' →
    (∀ off ∈ k.oamWritten, memRead oam' off.val = s.oamByte off.val) →
    (∀ p ∈ k.vramWritten, memRead (if p.1 then vram1' else vram0') p.2.toNat = s.vramByte p.1 p.2) →
    ∃ t, step s = .next t ∧
      step { s with oam := oam', vram0 := vram0', vram1 := vram1' } =
        .next { t with oam := oam', vram0 := vram0', vram1 := vram1' }

/-! ## Configuration and status -/

/-- R241: MODE.WR writes both flags and returns 0; nothing else of the spec's changes. -/
def Obligations.ModeWriteSetsBothFlags : Prop :=
  ∀ (s : State) (cgb bgpri : Bool),
    ∃ t, exec (.modeWr cgb bgpri) s = .next t ∧ t.mode.getLsbD 0 = cgb ∧ t.mode.getLsbD 1 = bgpri ∧
      t = { s with mode := t.mode, modeSet := t.modeSet, res := 0#32 }

/-- R242: MPAL.WR writes `MPAL[sel]` and returns 0; the other palette and everything else stay. -/
def Obligations.MonochromePaletteWriteStoresByte : Prop :=
  ∀ (s : State) (sel : BitVec 1) (data : Byte),
    ∃ t, exec (.mpalWr sel data) s = .next t ∧ t.mpalAt sel = data ∧ (∀ k, k ≠ sel → t.mpalAt k = s.mpalAt k) ∧
      t = { s with mpal := t.mpal, res := 0#32 }

/-- R243: CPAL.WR writes `CPAL[is_sprite][pal][ci]` and returns 0; the other 63 entries and everything else stay. -/
def Obligations.ColourPaletteWriteStoresEntry : Prop :=
  ∀ (s : State) (l : Bool) (p : BitVec 3) (k : BitVec 2) (rgb15 : BitVec 15),
    ∃ t, exec (.cpalWr l p k rgb15) s = .next t ∧ t.cpalAt l p k = rgb15 ∧
      (∀ l' p' k', (l', p', k') ≠ (l, p, k) → t.cpalAt l' p' k' = s.cpalAt l' p' k') ∧
      t = { s with cpal := t.cpal, res := 0#32 }

/-- R244: STATUS.RD's bits; those of a register unwritten since reset are unspecified (log 4), and no state changes but the
count of free values drawn (log 5). -/
def Obligations.StatusReadReportsFlags : Prop :=
  ∀ s : State, ∃ t, exec .statusRd s = .next t ∧
    (s.modeSet = true → t.res.getLsbD 0 = s.mode.getLsbD 0 ∧ t.res.getLsbD 1 = s.mode.getLsbD 1) ∧
    t.res.getLsbD 2 = s.pbOpen ∧ t.res.extractLsb' 3 5 = 0#5 ∧
    (s.pbLySet = true → t.res.extractLsb' 8 8 = s.pbLy) ∧
    t.res.extractLsb' 16 4 = s.fault ∧ t.res.extractLsb' 20 12 = 0#12 ∧
    t = { s with res := t.res, freeCount := t.freeCount }

/-- R244 after R241 and R161: once MODE.WR and PB.BEGIN have run, STATUS.RD returns what they wrote and nothing is free in
it. -/
def Obligations.StatusReadReportsWhatWasWritten : Prop :=
  ∀ (s : State) (cgb bgpri : Bool) (ly : Byte),
    ∃ t u, exec (.modeWr cgb bgpri) s = .next t ∧ exec (.pbBegin ly) t = .next u ∧
      exec .statusRd u = .next { u with
        res := BitVec.ofNat 32 (cgb.toNat + 2 * bgpri.toNat + 4 + 256 * ly.toNat + 65536 * s.fault.toNat) }

/-! ## Palette Resolver -/

/-- R121: PAL.RESOLVE in monochrome mode returns the shade, bits `2 ci + 1 : 2 ci` of `MPAL[sel]`, and changes nothing. -/
def Obligations.MonochromeResolveGivesShade : Prop :=
  ∀ (s : State) (sel : BitVec 3) (ci : BitVec 2), sel.toNat < 2 →
    exec (.palResolve false true sel ci) s =
      .next { s with res := BitVec.ofNat 32 ((s.mpalAt (BitVec.ofNat 1 sel.toNat)).toNat / 4 ^ ci.toNat % 4) }

/-- R122: PAL.RESOLVE in colour mode returns the stored entry, whichever it is, and changes nothing: after CPAL.WR of an entry
it returns the value written. -/
def Obligations.ColourResolveGivesStoredColour : Prop :=
  ∀ (s : State) (l : Bool) (p : BitVec 3) (k : BitVec 2) (rgb15 : BitVec 15),
    exec (.palResolve true l p k) s = .next { s with res := BitVec.ofNat 32 (s.cpalAt l p k).toNat } ∧
    exec (.palResolve true l p k) (s.writeCpal l p k rgb15) =
      .next { s.writeCpal l p k rgb15 with res := BitVec.ofNat 32 rgb15.toNat }

/-- R123: illegal operands of PAL.RESOLVE; SC.RENDER never produces them. -/
def Obligations.ResolveWithoutPaletteFaults : Prop :=
  ∀ s : State,
    (∀ (isSprite : Bool) (sel : BitVec 3) (ci : BitVec 2), s.fault = 0#4 → (2 ≤ sel.toNat ∨ isSprite = false) →
      exec (.palResolve false isSprite sel ci) s = .next (Spec.faulted s 1#4)) ∧
    Spec.renderKeepsFault s

/-- R124: PAL.SPLIT returns the three expanded channels; under `expand5 = zext_8` each is the 5-bit value. -/
def Obligations.SplitGivesThreeChannels : Prop :=
  ∀ (s : State) (rgb15 : BitVec 15),
    ∃ t, exec (.palSplit rgb15) s = .next t ∧ t = { s with res := t.res } ∧
      s.params.expand5.toList[rgb15.toNat % 32]? = some (t.res.extractLsb' 0 8) ∧
      s.params.expand5.toList[rgb15.toNat / 32 % 32]? = some (t.res.extractLsb' 8 8) ∧
      s.params.expand5.toList[rgb15.toNat / 1024 % 32]? = some (t.res.extractLsb' 16 8) ∧
      t.res.extractLsb' 24 8 = 0#8 ∧
      (s.params.expand5 = Params.defaults.expand5 →
        t.res.toNat = rgb15.toNat % 32 + 256 * (rgb15.toNat / 32 % 32) + 65536 * (rgb15.toNat / 1024))

/-! ## Tile Decoder -/

/-- R141: TILE.ROWSEL returns twice the row, mirrored in the sprite's height by the Y-flip; a row past the height faults, and
SC.RENDER passes none. -/
def Obligations.RowSelectionMirrorsAndDoubles : Prop :=
  ∀ s : State,
    (∀ (row : BitVec 4) (tall yflip : Bool),
      (row.toNat < Spec.height tall →
        exec (.tileRowsel row tall yflip) s =
          .next { s with
            res := BitVec.ofNat 32 (2 * (if yflip then Spec.height tall - 1 - row.toNat else row.toNat)) }) ∧
      (Spec.height tall ≤ row.toNat → s.fault = 0#4 →
        exec (.tileRowsel row tall yflip) s = .next (Spec.faulted s 1#4))) ∧
    Spec.renderKeepsFault s

/-- R142, R143, R144: TILE.FETCH of an odd offset faults with ILLEGAL_OP, whatever the bank; an even one with bank 1 in
monochrome mode with BAD_BANK, which SC.RENDER cannot raise; any other returns the bytes at `TILE_DATA_BASE + 16 * tile + off`
and the next address of the bank, and no address computation wraps. -/
def Obligations.FetchReadsTheRowsTwoBytes : Prop :=
  ∀ s : State,
    (∀ (tile : Byte) (bank : Bool) (off : BitVec 5),
      (off.toNat % 2 = 1 → s.fault = 0#4 → exec (.tileFetch tile bank off) s = .next (Spec.faulted s 1#4)) ∧
      (off.toNat % 2 = 0 → bank = true → s.mode.getLsbD 0 = false → s.fault = 0#4 →
        exec (.tileFetch tile bank off) s = .next (Spec.faulted s 2#4)) ∧
      (off.toNat % 2 = 0 → (bank = true → s.mode.getLsbD 0 = true) → s.params.wf = true →
        exec (.tileFetch tile bank off) s =
          .next { s with
            res := BitVec.ofNat 32
              ((memRead (if bank then s.vram1 else s.vram0)
                (s.params.tileDataBase.toNat + 16 * tile.toNat + off.toNat)).toNat +
              256 * (memRead (if bank then s.vram1 else s.vram0)
                (s.params.tileDataBase.toNat + 16 * tile.toNat + off.toNat + 1)).toNat) })) ∧
    Spec.renderKeepsFault s

/-- R146: TILE.PIXEL returns bit k of the second byte over bit k of the first, k the column, mirrored unless the X-flip is
set. -/
def Obligations.PixelPairsTheTwoPlanes : Prop :=
  ∀ (s : State) (b0 b1 : Byte) (c : BitVec 3) (xflip : Bool),
    exec (.tilePixel b0 b1 c xflip) s =
      .next { s with
        res := BitVec.ofNat 32
          (2 * (b1.toNat / 2 ^ (if xflip then c.toNat else 7 - c.toNat) % 2) +
          b0.toNat / 2 ^ (if xflip then c.toNat else 7 - c.toNat) % 2) }

/-- R148: a flip undoes a mirror. -/
def Obligations.FlipUndoesMirror : Prop :=
  ∀ s : State,
    (∀ (row mirrored : BitVec 4) (tall : Bool), row.toNat < Spec.height tall →
      mirrored.toNat = Spec.height tall - 1 - row.toNat →
      exec (.tileRowsel mirrored tall true) s = exec (.tileRowsel row tall false) s) ∧
    (∀ (b0 b1 : Byte) (c mirrored : BitVec 3), mirrored.toNat = 7 - c.toNat →
      exec (.tilePixel b0 b1 mirrored true) s = exec (.tilePixel b0 b1 c false) s)

/-! ## Priority Buffer -/

/-- R161: PB.BEGIN opens the scanline and invalidates every entry, keeping the entries' other bits; nothing else of the spec's
changes. -/
def Obligations.BeginOpensAndInvalidates : Prop :=
  ∀ (s : State) (ly : Byte),
    ∃ t, exec (.pbBegin ly) s = .next t ∧ t.pbOpen = true ∧ t.pbLy = ly ∧ t.pb.length = s.pb.length ∧
      (∀ (x : Nat) (e : PbEntry), s.pb[x]? = some e → t.pb[x]? = some ⟨false, e.ci, e.prio⟩) ∧
      t = { s with pbOpen := true, pbLy := ly, pbLySet := t.pbLySet, pb := t.pb, res := 0#32 }

/-- R162, R163: PB.WRITE to an open buffer stores entry x, every other entry and everything else staying; off the frame or
while closed it changes nothing and returns 0. -/
def Obligations.PbWriteStoresEntryOrNothing : Prop :=
  ∀ (s : State) (x : Byte) (ci : BitVec 2) (prio : Bool),
    (s.pbOpen = true → x.toNat < s.params.screenW → s.pb.length = s.params.screenW →
      ∃ t, exec (.pbWrite x ci prio) s = .next t ∧ t.pb[x.toNat]? = some ⟨true, ci, prio⟩ ∧
        (∀ n, n ≠ x.toNat → t.pb[n]? = s.pb[n]?) ∧ t = { s with pb := t.pb, res := 0#32 }) ∧
    ((s.pbOpen = false ∨ s.params.screenW ≤ x.toNat) →
      exec (.pbWrite x ci prio) s = .next { s with res := 0#32 })

/-- R110: the commands PB.FILL stands for leave the buffer open on the scanline with every entry live and as given, and
nothing else changed, so that what R297 asks for SC.RENDER is met. -/
def Obligations.PbFillMakesTheScanlineReady : Prop :=
  ∀ (s : State) (ly : Byte) (ci : BitVec 2) (prio : Bool), s.params.wf = true → s.pb.length = s.params.screenW →
    ∃ t, Spec.runAll (expandPbFill s.params.screenW ly ci prio) s = some t ∧
      t.pb = List.replicate s.params.screenW ⟨true, ci, prio⟩ ∧ t.spriteReady ly ∧
      t = { s with pbOpen := true, pbLy := ly, pbLySet := true, pb := t.pb, res := 0#32 }

/-- R164: PB.READ of a live entry returns it; of an entry that does not exist it returns three bits of which nothing is said, a
free value (log 5), and does not fault. No state of the spec's changes. -/
def Obligations.PbReadReturnsLiveEntryOrAnyBits : Prop :=
  ∀ (s : State) (x ly : Byte),
    (∀ (ci : BitVec 2) (prio : Bool),
      s.pbOpen = true → ly = s.pbLy → x.toNat < s.params.screenW → s.pb[x.toNat]? = some ⟨true, ci, prio⟩ →
      exec (.pbRead x ly) s = .next { s with res := BitVec.ofNat 32 (ci.toNat + 4 * prio.toNat) }) ∧
    ((s.pbOpen = false ∨ ly ≠ s.pbLy ∨ s.params.screenW ≤ x.toNat ∨
        ∀ e, s.pb[x.toNat]? = some e → e.valid = false) →
      ∃ (t : State) (v : BitVec 3), exec (.pbRead x ly) s = .next t ∧
        t = { s with res := BitVec.ofNat 32 v.toNat, freeCount := t.freeCount })

/-- R162 then R164: what PB.WRITE stored is what PB.READ of that scanline returns, until the next write to the column. -/
def Obligations.PbReadReturnsWhatPbWriteStored : Prop :=
  ∀ (s : State) (x y : Byte) (ci ci' : BitVec 2) (prio prio' : Bool),
    s.pbOpen = true → x.toNat < s.params.screenW → s.pb.length = s.params.screenW → y ≠ x →
    ∃ t u v, exec (.pbWrite x ci prio) s = .next t ∧ exec (.pbWrite y ci' prio') t = .next u ∧
      exec (.pbRead x s.pbLy) u = .next v ∧ v.res = BitVec.ofNat 32 (ci.toNat + 4 * prio.toNat)

/-- R166: PB.DISCARD closes the buffer and invalidates every entry, keeping the tag and the entries' other bits; of a closed
buffer, which has no valid entry, it changes nothing. -/
def Obligations.DiscardClosesAndInvalidates : Prop :=
  ∀ s : State,
    (∃ t, exec .pbDiscard s = .next t ∧ t.pbOpen = false ∧ t.pb.length = s.pb.length ∧
      (∀ (x : Nat) (e : PbEntry), s.pb[x]? = some e → t.pb[x]? = some ⟨false, e.ci, e.prio⟩) ∧
      t = { s with pbOpen := false, pb := t.pb, res := 0#32 }) ∧
    (s.pbOpen = false → (∀ e ∈ s.pb, e.valid = false) → exec .pbDiscard s = .next { s with res := 0#32 })

/-! ## Frame Buffer Writer -/

/-- R220, R221: FB.WRITE on the frame stores the channel, whatever it held, every other channel of every pixel and everything
else staying; off the frame, or to channel 3, it stores nothing, changes no state and returns 0. -/
def Obligations.FbWriteStoresOneChannelOrNothing : Prop :=
  ∀ (s : State) (x y : Byte) (ch : BitVec 2) (value : Byte),
    (Spec.onFrame s x y ch →
      ∃ t, exec (.fbWrite x y ch value) s = .next t ∧ t.fbAt x y ch = some value ∧
        (∀ x' y' ch', (x', y', ch') ≠ (x, y, ch) → t.fbAt x' y' ch' = s.fbAt x' y' ch') ∧
        t = { s with fb := t.fb, res := 0#32 }) ∧
    (¬ Spec.onFrame s x y ch → exec (.fbWrite x y ch value) s = .next { s with res := 0#32 })

/-- R223, R224: FB.READ returns a written channel of the frame; any other read returns eight bits of which nothing is said, a
free value (log 5). No state of the spec's changes. -/
def Obligations.FbReadReturnsWrittenChannelOrAnyBits : Prop :=
  ∀ (s : State) (x y : Byte) (ch : BitVec 2),
    (∀ v, Spec.onFrame s x y ch → s.fbAt x y ch = some v →
      exec (.fbRead x y ch) s = .next { s with res := BitVec.ofNat 32 v.toNat }) ∧
    ((¬ Spec.onFrame s x y ch ∨ s.fbAt x y ch = none) →
      ∃ (t : State) (v : Byte), exec (.fbRead x y ch) s = .next t ∧
        t = { s with res := BitVec.ofNat 32 v.toNat, freeCount := t.freeCount })

/-! ## Sprite Compositor -/

/-- R196, R201: SC.RENDER completes in every state, writes FB row `ly` and nothing else (the count of free values is the
model's own), returns 0, and what it writes does not depend on what FB held (the two runs draw the same free values, log 5). -/
def Obligations.RenderWritesOnlyItsRowOfTheFrame : Prop :=
  ∀ (s : State) (ly : Byte) (tall : Bool) (fb' : Memory),
    ∃ t u, exec (.scRender ly tall) s = .next t ∧ exec (.scRender ly tall) { s with fb := fb' } = .next u ∧
      t = { s with fb := t.fb, res := 0#32, freeCount := t.freeCount } ∧
      (∀ x y ch, y ≠ ly ∨ ¬ Spec.onFrame s x y ch → t.fbAt x y ch = s.fbAt x y ch) ∧
      (∀ x y ch, (t.fbAt x y ch = s.fbAt x y ch ∧ u.fbAt x y ch = cellAt fb' (fbKey x y ch)) ∨
        t.fbAt x y ch = u.fbAt x y ch)

/-- The sprite pass as a picture (R181 to R195, R198): each pixel of the scanline ends with the colour of the lowest-indexed
sprite that shows there, and a pixel where none shows keeps what it held. The premise is R297's, for the pixel alone: where a
non-transparent pixel of a visible sprite falls, the override holds or the Priority Buffer's entry is live. -/
def Obligations.RenderPaintsLowestIndexedShownSprite : Prop :=
  ∀ (s : State) (ly : Byte) (tall : Bool),
    ∃ t, exec (.scRender ly tall) s = .next t ∧
      ∀ (x : Byte) (ch : BitVec 2), Spec.onFrame s x ly ch → (Spec.touched s ly tall x → Spec.entryReady s ly x) →
        t.fbAt x ly ch =
          match Spec.winner s ly tall x with
          | some (i, ci) => some (Spec.channelValue s i ci ch)
          | none => s.fbAt x ly ch

/-- R200: a scanline off the frame leaves the frame buffer as it is. -/
def Obligations.RenderOffFrameStoresNothing : Prop :=
  ∀ (s : State) (ly : Byte) (tall : Bool), s.params.screenH ≤ ly.toNat →
    ∃ t, exec (.scRender ly tall) s = .next t ∧ t = { s with res := 0#32, freeCount := t.freeCount }

/-- R184: with no sprite visible on the scanline nothing happens at all. -/
def Obligations.InvisibleSpritesContributeNothing : Prop :=
  ∀ (s : State) (ly : Byte) (tall : Bool), (∀ i, i < 40 → ¬ Spec.visibleOn s ly tall i) →
    exec (.scRender ly tall) s = .next { s with res := 0#32 }

/-- R203: with every tile byte 0 no write and no Priority Buffer read is made. The bytes are those of R54, in both banks. -/
def Obligations.TransparentTilesDrawNothing : Prop :=
  ∀ (s : State) (ly : Byte) (tall : Bool), s.params.wf = true →
    (∀ a, s.params.tileDataBase.toNat ≤ a → a ≤ s.params.tileDataBase.toNat + 4095 →
      memRead s.vram0 a = 0#8 ∧ memRead s.vram1 a = 0#8) →
    exec (.scRender ly tall) s = .next { s with res := 0#32 }

/-- R185: in tall mode a tile index and the index with its low bit cleared draw the same. The two runs are compared under the same
unspecified bits: both start from one count of free values, so where Priority Buffer entries are not live, R297's premise
broken, the equality rests on log 5. -/
def Obligations.TallTileParityIsIgnored : Prop :=
  ∀ (s : State) (oam' : Memory) (ly : Byte),
    (∀ i, i < 40 → memRead oam' (4 * i) = memRead s.oam (4 * i) ∧
      memRead oam' (4 * i + 1) = memRead s.oam (4 * i + 1) ∧
      memRead oam' (4 * i + 3) = memRead s.oam (4 * i + 3) ∧
      (memRead oam' (4 * i + 2)).toNat / 2 = (memRead s.oam (4 * i + 2)).toNat / 2) →
    ∃ t, exec (.scRender ly true) s = .next t ∧
      exec (.scRender ly true) { s with oam := oam' } = .next { t with oam := oam' }

/-- R191: under the override the Priority Buffer is not read: whatever it holds, and whatever free values come, the same is
drawn. -/
def Obligations.OverrideDoesNotReadPriorityBuffer : Prop :=
  ∀ (s : State) (ly : Byte) (tall : Bool) (open' : Bool) (tag' : Byte) (pb' : List PbEntry) (n : Nat),
    s.mode.getLsbD 0 = true → s.mode.getLsbD 1 = false →
    ∃ t, exec (.scRender ly tall) s = .next t ∧
      exec (.scRender ly tall) { s with pbOpen := open', pbLy := tag', pb := pb', freeCount := n } =
        .next { t with pbOpen := open', pbLy := tag', pb := pb', freeCount := n }

/-- R191, R192: in monochrome mode neither BGPRI nor the entries' priority flags have any effect on what is drawn. -/
def Obligations.MonochromeIgnoresPriorityFlags : Prop :=
  ∀ (s : State) (ly : Byte) (tall : Bool) (mode' : BitVec 2) (flag : PbEntry → Bool),
    s.spriteReady ly → s.mode.getLsbD 0 = false → mode'.getLsbD 0 = false →
    ∃ t u, exec (.scRender ly tall) s = .next t ∧
      exec (.scRender ly tall) { s with mode := mode', pb := s.pb.map fun e => { e with prio := flag e } } = .next u ∧
      ∀ x y ch, u.fbAt x y ch = t.fbAt x y ch

/-- R187: in monochrome mode `attr.bank` is ignored: what VRAM bank 1 holds has no effect. The two runs are compared under the
same unspecified bits: both start from one count of free values, so where Priority Buffer entries are not live, R297's premise
broken, the equality rests on log 5. -/
def Obligations.MonochromeNeverReadsBankOne : Prop :=
  ∀ (s : State) (ly : Byte) (tall : Bool) (vram1' : Memory), s.mode.getLsbD 0 = false →
    ∃ t, exec (.scRender ly tall) s = .next t ∧
      exec (.scRender ly tall) { s with vram1 := vram1' } = .next { t with vram1 := vram1' }

/-- R125, R195: in monochrome mode SC.RENDER writes the three channels of a pixel alike, a shade below 4, or leaves all three. -/
def Obligations.MonochromePixelsHaveEqualChannels : Prop :=
  ∀ (s : State) (ly : Byte) (tall : Bool), s.mode.getLsbD 0 = false →
    ∃ t, exec (.scRender ly tall) s = .next t ∧
      ∀ x y : Byte,
        (∀ ch : BitVec 2, t.fbAt x y ch = s.fbAt x y ch) ∨
        ∃ v : Byte, v.toNat < 4 ∧ ∀ ch : BitVec 2, ch.toNat < 3 → t.fbAt x y ch = some v

/-- R202: with the contract of R297 met, rendering a scanline twice leaves the frame as rendering it once. -/
def Obligations.RenderingTwiceIsRenderingOnce : Prop :=
  ∀ (s : State) (ly : Byte) (tall : Bool), s.spriteReady ly →
    ∃ t u, exec (.scRender ly tall) s = .next t ∧ exec (.scRender ly tall) t = .next u ∧
      ∀ x y ch, u.fbAt x y ch = t.fbAt x y ch

/-- R300: under the override two scanlines can be rendered in either order with the same final frame. -/
def Obligations.ScanlinesRenderInAnyOrder : Prop :=
  ∀ (s : State) (ly ly' : Byte) (tall : Bool), ly ≠ ly' → s.mode.getLsbD 0 = true → s.mode.getLsbD 1 = false →
    ∃ t t' u u', exec (.scRender ly tall) s = .next t ∧ exec (.scRender ly' tall) t = .next t' ∧
      exec (.scRender ly' tall) s = .next u ∧ exec (.scRender ly tall) u = .next u' ∧
      ∀ x y ch, t'.fbAt x y ch = u'.fbAt x y ch
end

