-- ==== Sys2Proof/Laws/Memory.lean ====
section
/-! SUPPORT. The sparse byte lists: what a read finds after a write, and that every operation keeps the canonical form. -/

namespace Sys2Proof.Machine

@[simp] theorem cellAt_putCell_same (a : Nat) (v : Byte) (m : Memory) : cellAt (putCell a v m) a = some v := by
  induction m with
  | nil => simp [putCell, cellAt]
  | cons e m ih =>
    obtain ⟨b, w⟩ := e
    unfold putCell
    split
    · simp [cellAt]
    · split
      · simp [cellAt]
      · have : b ≠ a := fun h => by simp_all
        simp [cellAt, this, ih]

theorem cellAt_putCell_other {a b : Nat} (h : b ≠ a) (v : Byte) (m : Memory) :
    cellAt (putCell a v m) b = cellAt m b := by
  induction m with
  | nil => simp [putCell, cellAt, h.symm]
  | cons e m ih =>
    obtain ⟨c, w⟩ := e
    unfold putCell
    split
    · simp [cellAt, h.symm]
    · split
      · subst c; simp [cellAt, h.symm]
      · simp [cellAt, ih]

theorem cellAt_putCell (a b : Nat) (v : Byte) (m : Memory) :
    cellAt (putCell a v m) b = if b = a then some v else cellAt m b := by
  split
  · subst b; exact cellAt_putCell_same a v m
  · exact cellAt_putCell_other ‹_› v m

theorem cellAt_dropCell_other {a b : Nat} (h : b ≠ a) (m : Memory) : cellAt (dropCell a m) b = cellAt m b := by
  induction m with
  | nil => rfl
  | cons e m ih =>
    obtain ⟨c, w⟩ := e
    unfold dropCell
    split
    · subst c; simp [cellAt, h.symm]
    · simp [cellAt, ih]

theorem cellAt_eq_none {a : Nat} {m : Memory} (h : ∀ e ∈ m, e.1 ≠ a) : cellAt m a = none := by
  induction m with
  | nil => rfl
  | cons e m ih =>
    have he : e.1 ≠ a := h e (by simp)
    simp [cellAt, he, ih fun x hx => h x (by simp [hx])]

theorem cellAt_dropCell_same {a : Nat} {m : Memory} (h : m.rising) : cellAt (dropCell a m) a = none := by
  induction m with
  | nil => rfl
  | cons e m ih =>
    obtain ⟨c, w⟩ := e
    simp only [Memory.rising, List.map_cons, List.pairwise_cons, List.mem_map, forall_exists_index, and_imp] at h
    unfold dropCell
    split
    · subst c
      exact cellAt_eq_none fun e he => (h.1 e.1 e he rfl).ne'
    · simpa [cellAt, ‹c ≠ a›] using ih h.2

theorem mem_putCell {a : Nat} {v : Byte} {m : Memory} {e : Host.Cell} (h : e ∈ putCell a v m) :
    e = (a, v) ∨ e ∈ m := by
  induction m with
  | nil => simpa [putCell] using h
  | cons d m ih =>
    unfold putCell at h
    split at h
    · simpa using h
    · split at h
      · simp only [List.mem_cons] at h ⊢; tauto
      · simp only [List.mem_cons] at h ⊢
        rcases h with h | h
        · exact .inr (.inl h)
        · exact (ih h).imp_right .inr

theorem mem_dropCell {a : Nat} {m : Memory} {e : Host.Cell} (h : e ∈ dropCell a m) : e ∈ m := by
  induction m with
  | nil => exact h
  | cons d m ih =>
    unfold dropCell at h
    split at h
    · exact List.mem_cons_of_mem _ h
    · rcases List.mem_cons.1 h with h | h
      · exact List.mem_cons.2 (.inl h)
      · exact List.mem_cons_of_mem _ (ih h)

/-- Writing keeps the addresses rising. -/
theorem putCell_rising {a : Nat} {v : Byte} {m : Memory} (h : m.rising) : (putCell a v m).rising := by
  induction m with
  | nil => simp [putCell, Memory.rising]
  | cons e m ih =>
    obtain ⟨b, w⟩ := e
    have h' := h
    simp only [Memory.rising, List.map_cons, List.pairwise_cons, List.mem_map, forall_exists_index, and_imp] at h
    unfold putCell
    split
    · simp only [Memory.rising, List.map_cons, List.pairwise_cons] at h' ⊢
      refine ⟨?_, h'⟩
      intro c hc
      rcases List.mem_cons.1 hc with rfl | hc
      · assumption
      · exact lt_trans ‹_› (h'.1 c hc)
    · split
      · subst b; exact h'
      · simp only [Memory.rising, List.map_cons, List.pairwise_cons, List.mem_map, forall_exists_index, and_imp]
        refine ⟨?_, ih h.2⟩
        intro c e he hc
        rcases mem_putCell he with rfl | he
        · subst hc; simp only; omega
        · exact h.1 c e he hc

/-- Unlisting an address keeps the addresses rising. -/
theorem dropCell_rising {a : Nat} {m : Memory} (h : m.rising) : (dropCell a m).rising := by
  induction m with
  | nil => exact h
  | cons e m ih =>
    obtain ⟨b, w⟩ := e
    simp only [Memory.rising, List.map_cons, List.pairwise_cons, List.mem_map, forall_exists_index, and_imp] at h
    unfold dropCell
    split
    · exact h.2
    · simp only [Memory.rising, List.map_cons, List.pairwise_cons, List.mem_map, forall_exists_index, and_imp]
      exact ⟨fun c e he hc => h.1 c e (mem_dropCell he) hc, ih h.2⟩

/-- A write keeps a memory's canonical form. -/
theorem memWrite_wf {size a : Nat} {v : Byte} {m : Memory} (ha : a < size) (h : Memory.wf size m) :
    Memory.wf size (memWrite a v m) := by
  unfold memWrite
  split
  · exact ⟨dropCell_rising h.1, fun e he => h.2 e (mem_dropCell he)⟩
  · refine ⟨putCell_rising h.1, fun e he => ?_⟩
    rcases mem_putCell he with rfl | he
    · exact ⟨ha, ‹_›⟩
    · exact h.2 e he

/-- A read finds the byte written to its address. -/
theorem memRead_memWrite_same {a : Nat} {v : Byte} {m : Memory} (h : m.rising) : memRead (memWrite a v m) a = v := by
  unfold memRead memWrite
  split
  · simp [cellAt_dropCell_same h, *]
  · simp

/-- A write leaves every other byte alone. -/
theorem memRead_memWrite_other {a b : Nat} (h : b ≠ a) (v : Byte) (m : Memory) :
    memRead (memWrite a v m) b = memRead m b := by
  unfold memRead memWrite
  split
  · rw [cellAt_dropCell_other h]
  · rw [cellAt_putCell_other h]

end Sys2Proof.Machine
end

