-- ==== Sys2Proof/Laws/Operands.lean ====
section
/-! SUPPORT. The index and key functions name distinct elements, and the ranges of R113. -/

namespace Sys2Proof.Machine

/-- Two channels of the frame buffer never share a key. -/
theorem fbKey_inj {x y x' y' : Byte} {ch ch' : BitVec 2} :
    fbKey x y ch = fbKey x' y' ch' ↔ x = x' ∧ y = y' ∧ ch = ch' := by
  constructor
  · intro h
    unfold fbKey at h
    have := x.isLt; have := x'.isLt; have := ch.isLt; have := ch'.isLt
    refine ⟨?_, ?_, ?_⟩ <;> apply BitVec.eq_of_toNat_eq <;> omega
  · rintro ⟨rfl, rfl, rfl⟩; rfl

/-- The three coordinates can be read back from a key. -/
theorem fbKey_parts (x y : Byte) (ch : BitVec 2) :
    fbKey x y ch % 4 = ch.toNat ∧ fbKey x y ch / 4 % 256 = x.toNat ∧ fbKey x y ch / 1024 = y.toNat := by
  unfold fbKey
  have := x.isLt; have := ch.isLt
  omega

/-- `cpalIndex` is `32 * l + 4 * p + k`. -/
theorem cpalIndex_val (l : Bool) (p : BitVec 3) (k : BitVec 2) :
    (cpalIndex l p k).val = 32 * l.toNat + 4 * p.toNat + k.toNat := by
  revert l p k; decide

/-- Two palette entries never share an index. -/
theorem cpalIndex_inj {l l' : Bool} {p p' : BitVec 3} {k k' : BitVec 2} :
    cpalIndex l p k = cpalIndex l' p' k' ↔ l = l' ∧ p = p' ∧ k = k' := by
  constructor
  · intro h
    have h := congrArg Fin.val h
    rw [cpalIndex_val, cpalIndex_val] at h
    have := p.isLt; have := p'.isLt; have := k.isLt; have := k'.isLt
    cases l <;> cases l' <;> simp only [Bool.toNat_false, Bool.toNat_true] at h <;>
      first
      | omega
      | exact ⟨rfl, BitVec.eq_of_toNat_eq (by omega), BitVec.eq_of_toNat_eq (by omega)⟩
  · rintro ⟨rfl, rfl, rfl⟩; rfl

/-- The colour index as a number: the second byte gives the high bit (R146). -/
theorem pixelIndex_toNat (b0 b1 : Byte) (c : BitVec 3) (xflip : Bool) :
    (pixelIndex b0 b1 c xflip).toNat =
      2 * (b1.toNat / 2 ^ (if xflip then c.toNat else 7 - c.toNat) % 2) +
        b0.toNat / 2 ^ (if xflip then c.toNat else 7 - c.toNat) % 2 := by
  have hk : (effectiveColumn c xflip).toNat = if xflip then c.toNat else 7 - c.toNat := by
    revert c xflip; decide
  unfold pixelIndex
  simp only [hk]
  generalize (if xflip then c.toNat else 7 - c.toNat) = k
  have hb : ∀ b : Byte, b.getLsbD k = decide (b.toNat / 2 ^ k % 2 = 1) := by
    intro b; rw [BitVec.getLsbD, Nat.testBit_eq_decide_div_mod_eq]
  rw [hb, hb]
  rcases Nat.mod_two_eq_zero_or_one (b1.toNat / 2 ^ k) with h1 | h1 <;>
  rcases Nat.mod_two_eq_zero_or_one (b0.toNat / 2 ^ k) with h0 | h0 <;> simp [h1, h0]

/-- The column of a sprite that lands on screen column `x`, if one does (R189). -/
theorem find_column (left x : Byte) :
    columnOrder.find? (fun c => x = pixelColumn left c) =
      if (x.toNat + 256 - left.toNat) % 256 < 8 then some (BitVec.ofNat 3 ((x.toNat + 256 - left.toNat) % 256)) else none := by
  have hx := x.isLt
  have hl := left.isLt
  have key : ∀ c : BitVec 3, x = pixelColumn left c ↔ c.toNat = (x.toNat + 256 - left.toNat) % 256 := by
    intro c
    have := c.isLt
    unfold pixelColumn
    rw [← BitVec.toNat_inj, BitVec.toNat_add]
    simp only [BitVec.toNat_setWidth]
    omega
  simp only [key]
  generalize (x.toNat + 256 - left.toNat) % 256 = n
  split
  · interval_cases n <;> decide
  · simp [List.find?_eq_none, columnOrder]; omega

/-- A tall sprite's tile is even (R185). -/
theorem spriteTile_toNat (tall : Bool) (tile : Byte) :
    (spriteTile tall tile).toNat = if tall then tile.toNat - tile.toNat % 2 else tile.toNat := by
  revert tall tile; decide

/-- The row offset as a number, its row inside the sprite (R141). -/
theorem rowOffset_toNat (row : BitVec 4) (tall yflip : Bool) (h : row.toNat < spriteHeight tall) :
    (rowOffset row tall yflip).toNat = 2 * (if yflip then spriteHeight tall - 1 - row.toNat else row.toNat) := by
  revert row tall yflip; decide

/-- The row of a visible sprite fits its height (R186). -/
theorem spriteRow_toNat {y ly : Byte} {tall : Bool} (h : spriteVisible tall y ly = true) :
    (spriteRow y ly).toNat = ly.toNat - y.toNat ∧ ly.toNat - y.toNat < spriteHeight tall := by
  simp [spriteVisible] at h
  have : spriteHeight tall ≤ 16 := by cases tall <;> decide
  unfold spriteRow
  simp only [BitVec.toNat_ofNat]
  omega

/-- The tile address is the sum of R142, taken once modulo 2^16. -/
theorem tileAddress_eq (p : Params) (tile : Byte) (off : BitVec 5) :
    tileAddress p tile off = BitVec.ofNat 16 (p.tileDataBase.toNat + 16 * tile.toNat + off.toNat) := by
  have := tile.isLt; have := off.isLt
  apply BitVec.eq_of_toNat_eq
  unfold tileAddress
  simp only [BitVec.toNat_add, BitVec.toNat_mul, BitVec.toNat_setWidth, BitVec.toNat_ofNat]
  omega

/-- The parameter constraints as the spec writes them (R302, U14). -/
theorem wf_iff (p : Params) : p.wf = true ↔ p.tileDataBase.toNat + 4111 ≤ 0xFFFF ∧ p.screenW ≤ 256 ∧ p.screenH ≤ 256 := by
  simp only [Params.wf, Bool.and_eq_true, decide_eq_true_iff]
  omega

/-- With legal parameters neither address of an even offset wraps (R54, R302). -/
theorem tileAddress_toNat {p : Params} (h : p.wf = true) (tile : Byte) (off : BitVec 5) (ho : off.toNat % 2 = 0) :
    (tileAddress p tile off).toNat = p.tileDataBase.toNat + 16 * tile.toNat + off.toNat ∧
    (tileAddress p tile off + 1#16).toNat = p.tileDataBase.toNat + 16 * tile.toNat + off.toNat + 1 := by
  have hw := (wf_iff p).1 h
  have := tile.isLt; have := off.isLt
  rw [tileAddress_eq]
  simp only [BitVec.toNat_add, BitVec.toNat_ofNat]
  norm_num
  constructor <;> omega

/-- The shade as a number (R121). -/
theorem shadeOf_toNat (b : Byte) (ci : BitVec 2) : (shadeOf b ci).toNat = b.toNat / 4 ^ ci.toNat % 4 := by
  simp [shadeOf, Nat.shiftRight_eq_div_pow, pow_mul]

end Sys2Proof.Machine
end

