-- ==== Sys2Proof/Laws/State.lean ====
section
/-! SUPPORT. What each update of the state leaves in each field: one lemma per field per update. -/

namespace Sys2Proof.Machine

variable (s : State)

/-! ## setRes -/

@[simp] theorem setRes_params (v : Word) : (s.setRes v).params = s.params := rfl
@[simp] theorem setRes_mode (v : Word) : (s.setRes v).mode = s.mode := rfl
@[simp] theorem setRes_modeSet (v : Word) : (s.setRes v).modeSet = s.modeSet := rfl
@[simp] theorem setRes_fault (v : Word) : (s.setRes v).fault = s.fault := rfl
@[simp] theorem setRes_mpal (v : Word) : (s.setRes v).mpal = s.mpal := rfl
@[simp] theorem setRes_cpal (v : Word) : (s.setRes v).cpal = s.cpal := rfl
@[simp] theorem setRes_pbOpen (v : Word) : (s.setRes v).pbOpen = s.pbOpen := rfl
@[simp] theorem setRes_pbLy (v : Word) : (s.setRes v).pbLy = s.pbLy := rfl
@[simp] theorem setRes_pbLySet (v : Word) : (s.setRes v).pbLySet = s.pbLySet := rfl
@[simp] theorem setRes_pb (v : Word) : (s.setRes v).pb = s.pb := rfl
@[simp] theorem setRes_fb (v : Word) : (s.setRes v).fb = s.fb := rfl
@[simp] theorem setRes_oam (v : Word) : (s.setRes v).oam = s.oam := rfl
@[simp] theorem setRes_vram0 (v : Word) : (s.setRes v).vram0 = s.vram0 := rfl
@[simp] theorem setRes_vram1 (v : Word) : (s.setRes v).vram1 = s.vram1 := rfl
@[simp] theorem setRes_inbox (v : Word) : (s.setRes v).inbox = s.inbox := rfl
@[simp] theorem setRes_res (v : Word) : (s.setRes v).res = v := rfl
@[simp] theorem setRes_freeCount (v : Word) : (s.setRes v).freeCount = s.freeCount := rfl
@[simp] theorem setRes_cgb (v : Word) : (s.setRes v).cgb = s.cgb := rfl
@[simp] theorem setRes_bgpri (v : Word) : (s.setRes v).bgpri = s.bgpri := rfl
@[simp] theorem setRes_override (v : Word) : (s.setRes v).override = s.override := rfl

/-! ## drawFree -/

@[simp] theorem drawFree_params : (s.drawFree).params = s.params := rfl
@[simp] theorem drawFree_mode : (s.drawFree).mode = s.mode := rfl
@[simp] theorem drawFree_modeSet : (s.drawFree).modeSet = s.modeSet := rfl
@[simp] theorem drawFree_fault : (s.drawFree).fault = s.fault := rfl
@[simp] theorem drawFree_mpal : (s.drawFree).mpal = s.mpal := rfl
@[simp] theorem drawFree_cpal : (s.drawFree).cpal = s.cpal := rfl
@[simp] theorem drawFree_pbOpen : (s.drawFree).pbOpen = s.pbOpen := rfl
@[simp] theorem drawFree_pbLy : (s.drawFree).pbLy = s.pbLy := rfl
@[simp] theorem drawFree_pbLySet : (s.drawFree).pbLySet = s.pbLySet := rfl
@[simp] theorem drawFree_pb : (s.drawFree).pb = s.pb := rfl
@[simp] theorem drawFree_fb : (s.drawFree).fb = s.fb := rfl
@[simp] theorem drawFree_oam : (s.drawFree).oam = s.oam := rfl
@[simp] theorem drawFree_vram0 : (s.drawFree).vram0 = s.vram0 := rfl
@[simp] theorem drawFree_vram1 : (s.drawFree).vram1 = s.vram1 := rfl
@[simp] theorem drawFree_inbox : (s.drawFree).inbox = s.inbox := rfl
@[simp] theorem drawFree_res : (s.drawFree).res = s.res := rfl
@[simp] theorem drawFree_freeCount : (s.drawFree).freeCount = s.freeCount + 1 := rfl
@[simp] theorem drawFree_cgb : (s.drawFree).cgb = s.cgb := rfl
@[simp] theorem drawFree_bgpri : (s.drawFree).bgpri = s.bgpri := rfl
@[simp] theorem drawFree_override : (s.drawFree).override = s.override := rfl

/-! ## writeMode -/

@[simp] theorem writeMode_params (c b : Bool) : (s.writeMode c b).params = s.params := rfl
@[simp] theorem writeMode_mode (c b : Bool) : (s.writeMode c b).mode = modeBits c b := rfl
@[simp] theorem writeMode_modeSet (c b : Bool) : (s.writeMode c b).modeSet = true := rfl
@[simp] theorem writeMode_fault (c b : Bool) : (s.writeMode c b).fault = s.fault := rfl
@[simp] theorem writeMode_mpal (c b : Bool) : (s.writeMode c b).mpal = s.mpal := rfl
@[simp] theorem writeMode_cpal (c b : Bool) : (s.writeMode c b).cpal = s.cpal := rfl
@[simp] theorem writeMode_pbOpen (c b : Bool) : (s.writeMode c b).pbOpen = s.pbOpen := rfl
@[simp] theorem writeMode_pbLy (c b : Bool) : (s.writeMode c b).pbLy = s.pbLy := rfl
@[simp] theorem writeMode_pbLySet (c b : Bool) : (s.writeMode c b).pbLySet = s.pbLySet := rfl
@[simp] theorem writeMode_pb (c b : Bool) : (s.writeMode c b).pb = s.pb := rfl
@[simp] theorem writeMode_fb (c b : Bool) : (s.writeMode c b).fb = s.fb := rfl
@[simp] theorem writeMode_oam (c b : Bool) : (s.writeMode c b).oam = s.oam := rfl
@[simp] theorem writeMode_vram0 (c b : Bool) : (s.writeMode c b).vram0 = s.vram0 := rfl
@[simp] theorem writeMode_vram1 (c b : Bool) : (s.writeMode c b).vram1 = s.vram1 := rfl
@[simp] theorem writeMode_inbox (c b : Bool) : (s.writeMode c b).inbox = s.inbox := rfl
@[simp] theorem writeMode_res (c b : Bool) : (s.writeMode c b).res = s.res := rfl
@[simp] theorem writeMode_freeCount (c b : Bool) : (s.writeMode c b).freeCount = s.freeCount := rfl

/-! ## writeMpal -/

@[simp] theorem writeMpal_params (k : BitVec 1) (v : Byte) : (s.writeMpal k v).params = s.params := rfl
@[simp] theorem writeMpal_mode (k : BitVec 1) (v : Byte) : (s.writeMpal k v).mode = s.mode := rfl
@[simp] theorem writeMpal_modeSet (k : BitVec 1) (v : Byte) : (s.writeMpal k v).modeSet = s.modeSet := rfl
@[simp] theorem writeMpal_fault (k : BitVec 1) (v : Byte) : (s.writeMpal k v).fault = s.fault := rfl
@[simp] theorem writeMpal_mpal (k : BitVec 1) (v : Byte) : (s.writeMpal k v).mpal = s.mpal.set k.toFin v := rfl
@[simp] theorem writeMpal_cpal (k : BitVec 1) (v : Byte) : (s.writeMpal k v).cpal = s.cpal := rfl
@[simp] theorem writeMpal_pbOpen (k : BitVec 1) (v : Byte) : (s.writeMpal k v).pbOpen = s.pbOpen := rfl
@[simp] theorem writeMpal_pbLy (k : BitVec 1) (v : Byte) : (s.writeMpal k v).pbLy = s.pbLy := rfl
@[simp] theorem writeMpal_pbLySet (k : BitVec 1) (v : Byte) : (s.writeMpal k v).pbLySet = s.pbLySet := rfl
@[simp] theorem writeMpal_pb (k : BitVec 1) (v : Byte) : (s.writeMpal k v).pb = s.pb := rfl
@[simp] theorem writeMpal_fb (k : BitVec 1) (v : Byte) : (s.writeMpal k v).fb = s.fb := rfl
@[simp] theorem writeMpal_oam (k : BitVec 1) (v : Byte) : (s.writeMpal k v).oam = s.oam := rfl
@[simp] theorem writeMpal_vram0 (k : BitVec 1) (v : Byte) : (s.writeMpal k v).vram0 = s.vram0 := rfl
@[simp] theorem writeMpal_vram1 (k : BitVec 1) (v : Byte) : (s.writeMpal k v).vram1 = s.vram1 := rfl
@[simp] theorem writeMpal_inbox (k : BitVec 1) (v : Byte) : (s.writeMpal k v).inbox = s.inbox := rfl
@[simp] theorem writeMpal_res (k : BitVec 1) (v : Byte) : (s.writeMpal k v).res = s.res := rfl
@[simp] theorem writeMpal_freeCount (k : BitVec 1) (v : Byte) : (s.writeMpal k v).freeCount = s.freeCount := rfl
@[simp] theorem writeMpal_cgb (k : BitVec 1) (v : Byte) : (s.writeMpal k v).cgb = s.cgb := rfl
@[simp] theorem writeMpal_bgpri (k : BitVec 1) (v : Byte) : (s.writeMpal k v).bgpri = s.bgpri := rfl
@[simp] theorem writeMpal_override (k : BitVec 1) (v : Byte) : (s.writeMpal k v).override = s.override := rfl

/-! ## writeCpal -/

@[simp] theorem writeCpal_params (l : Bool) (p : BitVec 3) (k : BitVec 2) (v : BitVec 15) : (s.writeCpal l p k v).params = s.params := rfl
@[simp] theorem writeCpal_mode (l : Bool) (p : BitVec 3) (k : BitVec 2) (v : BitVec 15) : (s.writeCpal l p k v).mode = s.mode := rfl
@[simp] theorem writeCpal_modeSet (l : Bool) (p : BitVec 3) (k : BitVec 2) (v : BitVec 15) : (s.writeCpal l p k v).modeSet = s.modeSet := rfl
@[simp] theorem writeCpal_fault (l : Bool) (p : BitVec 3) (k : BitVec 2) (v : BitVec 15) : (s.writeCpal l p k v).fault = s.fault := rfl
@[simp] theorem writeCpal_mpal (l : Bool) (p : BitVec 3) (k : BitVec 2) (v : BitVec 15) : (s.writeCpal l p k v).mpal = s.mpal := rfl
@[simp] theorem writeCpal_cpal (l : Bool) (p : BitVec 3) (k : BitVec 2) (v : BitVec 15) : (s.writeCpal l p k v).cpal = s.cpal.set (cpalIndex l p k) v := rfl
@[simp] theorem writeCpal_pbOpen (l : Bool) (p : BitVec 3) (k : BitVec 2) (v : BitVec 15) : (s.writeCpal l p k v).pbOpen = s.pbOpen := rfl
@[simp] theorem writeCpal_pbLy (l : Bool) (p : BitVec 3) (k : BitVec 2) (v : BitVec 15) : (s.writeCpal l p k v).pbLy = s.pbLy := rfl
@[simp] theorem writeCpal_pbLySet (l : Bool) (p : BitVec 3) (k : BitVec 2) (v : BitVec 15) : (s.writeCpal l p k v).pbLySet = s.pbLySet := rfl
@[simp] theorem writeCpal_pb (l : Bool) (p : BitVec 3) (k : BitVec 2) (v : BitVec 15) : (s.writeCpal l p k v).pb = s.pb := rfl
@[simp] theorem writeCpal_fb (l : Bool) (p : BitVec 3) (k : BitVec 2) (v : BitVec 15) : (s.writeCpal l p k v).fb = s.fb := rfl
@[simp] theorem writeCpal_oam (l : Bool) (p : BitVec 3) (k : BitVec 2) (v : BitVec 15) : (s.writeCpal l p k v).oam = s.oam := rfl
@[simp] theorem writeCpal_vram0 (l : Bool) (p : BitVec 3) (k : BitVec 2) (v : BitVec 15) : (s.writeCpal l p k v).vram0 = s.vram0 := rfl
@[simp] theorem writeCpal_vram1 (l : Bool) (p : BitVec 3) (k : BitVec 2) (v : BitVec 15) : (s.writeCpal l p k v).vram1 = s.vram1 := rfl
@[simp] theorem writeCpal_inbox (l : Bool) (p : BitVec 3) (k : BitVec 2) (v : BitVec 15) : (s.writeCpal l p k v).inbox = s.inbox := rfl
@[simp] theorem writeCpal_res (l : Bool) (p : BitVec 3) (k : BitVec 2) (v : BitVec 15) : (s.writeCpal l p k v).res = s.res := rfl
@[simp] theorem writeCpal_freeCount (l : Bool) (p : BitVec 3) (k : BitVec 2) (v : BitVec 15) : (s.writeCpal l p k v).freeCount = s.freeCount := rfl
@[simp] theorem writeCpal_cgb (l : Bool) (p : BitVec 3) (k : BitVec 2) (v : BitVec 15) : (s.writeCpal l p k v).cgb = s.cgb := rfl
@[simp] theorem writeCpal_bgpri (l : Bool) (p : BitVec 3) (k : BitVec 2) (v : BitVec 15) : (s.writeCpal l p k v).bgpri = s.bgpri := rfl
@[simp] theorem writeCpal_override (l : Bool) (p : BitVec 3) (k : BitVec 2) (v : BitVec 15) : (s.writeCpal l p k v).override = s.override := rfl

/-! ## beginPb -/

@[simp] theorem beginPb_params (ly : Byte) : (s.beginPb ly).params = s.params := rfl
@[simp] theorem beginPb_mode (ly : Byte) : (s.beginPb ly).mode = s.mode := rfl
@[simp] theorem beginPb_modeSet (ly : Byte) : (s.beginPb ly).modeSet = s.modeSet := rfl
@[simp] theorem beginPb_fault (ly : Byte) : (s.beginPb ly).fault = s.fault := rfl
@[simp] theorem beginPb_mpal (ly : Byte) : (s.beginPb ly).mpal = s.mpal := rfl
@[simp] theorem beginPb_cpal (ly : Byte) : (s.beginPb ly).cpal = s.cpal := rfl
@[simp] theorem beginPb_pbOpen (ly : Byte) : (s.beginPb ly).pbOpen = true := rfl
@[simp] theorem beginPb_pbLy (ly : Byte) : (s.beginPb ly).pbLy = ly := rfl
@[simp] theorem beginPb_pbLySet (ly : Byte) : (s.beginPb ly).pbLySet = true := rfl
@[simp] theorem beginPb_pb (ly : Byte) : (s.beginPb ly).pb = invalidEntries s.pb := rfl
@[simp] theorem beginPb_fb (ly : Byte) : (s.beginPb ly).fb = s.fb := rfl
@[simp] theorem beginPb_oam (ly : Byte) : (s.beginPb ly).oam = s.oam := rfl
@[simp] theorem beginPb_vram0 (ly : Byte) : (s.beginPb ly).vram0 = s.vram0 := rfl
@[simp] theorem beginPb_vram1 (ly : Byte) : (s.beginPb ly).vram1 = s.vram1 := rfl
@[simp] theorem beginPb_inbox (ly : Byte) : (s.beginPb ly).inbox = s.inbox := rfl
@[simp] theorem beginPb_res (ly : Byte) : (s.beginPb ly).res = s.res := rfl
@[simp] theorem beginPb_freeCount (ly : Byte) : (s.beginPb ly).freeCount = s.freeCount := rfl
@[simp] theorem beginPb_cgb (ly : Byte) : (s.beginPb ly).cgb = s.cgb := rfl
@[simp] theorem beginPb_bgpri (ly : Byte) : (s.beginPb ly).bgpri = s.bgpri := rfl
@[simp] theorem beginPb_override (ly : Byte) : (s.beginPb ly).override = s.override := rfl

/-! ## discardPb -/

@[simp] theorem discardPb_params : (s.discardPb).params = s.params := rfl
@[simp] theorem discardPb_mode : (s.discardPb).mode = s.mode := rfl
@[simp] theorem discardPb_modeSet : (s.discardPb).modeSet = s.modeSet := rfl
@[simp] theorem discardPb_fault : (s.discardPb).fault = s.fault := rfl
@[simp] theorem discardPb_mpal : (s.discardPb).mpal = s.mpal := rfl
@[simp] theorem discardPb_cpal : (s.discardPb).cpal = s.cpal := rfl
@[simp] theorem discardPb_pbOpen : (s.discardPb).pbOpen = false := rfl
@[simp] theorem discardPb_pbLy : (s.discardPb).pbLy = s.pbLy := rfl
@[simp] theorem discardPb_pbLySet : (s.discardPb).pbLySet = s.pbLySet := rfl
@[simp] theorem discardPb_pb : (s.discardPb).pb = invalidEntries s.pb := rfl
@[simp] theorem discardPb_fb : (s.discardPb).fb = s.fb := rfl
@[simp] theorem discardPb_oam : (s.discardPb).oam = s.oam := rfl
@[simp] theorem discardPb_vram0 : (s.discardPb).vram0 = s.vram0 := rfl
@[simp] theorem discardPb_vram1 : (s.discardPb).vram1 = s.vram1 := rfl
@[simp] theorem discardPb_inbox : (s.discardPb).inbox = s.inbox := rfl
@[simp] theorem discardPb_res : (s.discardPb).res = s.res := rfl
@[simp] theorem discardPb_freeCount : (s.discardPb).freeCount = s.freeCount := rfl
@[simp] theorem discardPb_cgb : (s.discardPb).cgb = s.cgb := rfl
@[simp] theorem discardPb_bgpri : (s.discardPb).bgpri = s.bgpri := rfl
@[simp] theorem discardPb_override : (s.discardPb).override = s.override := rfl

/-! ## writeOam -/

@[simp] theorem writeOam_params (a : Fin 160) (v : Byte) : (s.writeOam a v).params = s.params := rfl
@[simp] theorem writeOam_mode (a : Fin 160) (v : Byte) : (s.writeOam a v).mode = s.mode := rfl
@[simp] theorem writeOam_modeSet (a : Fin 160) (v : Byte) : (s.writeOam a v).modeSet = s.modeSet := rfl
@[simp] theorem writeOam_fault (a : Fin 160) (v : Byte) : (s.writeOam a v).fault = s.fault := rfl
@[simp] theorem writeOam_mpal (a : Fin 160) (v : Byte) : (s.writeOam a v).mpal = s.mpal := rfl
@[simp] theorem writeOam_cpal (a : Fin 160) (v : Byte) : (s.writeOam a v).cpal = s.cpal := rfl
@[simp] theorem writeOam_pbOpen (a : Fin 160) (v : Byte) : (s.writeOam a v).pbOpen = s.pbOpen := rfl
@[simp] theorem writeOam_pbLy (a : Fin 160) (v : Byte) : (s.writeOam a v).pbLy = s.pbLy := rfl
@[simp] theorem writeOam_pbLySet (a : Fin 160) (v : Byte) : (s.writeOam a v).pbLySet = s.pbLySet := rfl
@[simp] theorem writeOam_pb (a : Fin 160) (v : Byte) : (s.writeOam a v).pb = s.pb := rfl
@[simp] theorem writeOam_fb (a : Fin 160) (v : Byte) : (s.writeOam a v).fb = s.fb := rfl
@[simp] theorem writeOam_oam (a : Fin 160) (v : Byte) : (s.writeOam a v).oam = memWrite a.val v s.oam := rfl
@[simp] theorem writeOam_vram0 (a : Fin 160) (v : Byte) : (s.writeOam a v).vram0 = s.vram0 := rfl
@[simp] theorem writeOam_vram1 (a : Fin 160) (v : Byte) : (s.writeOam a v).vram1 = s.vram1 := rfl
@[simp] theorem writeOam_inbox (a : Fin 160) (v : Byte) : (s.writeOam a v).inbox = s.inbox := rfl
@[simp] theorem writeOam_res (a : Fin 160) (v : Byte) : (s.writeOam a v).res = s.res := rfl
@[simp] theorem writeOam_freeCount (a : Fin 160) (v : Byte) : (s.writeOam a v).freeCount = s.freeCount := rfl
@[simp] theorem writeOam_cgb (a : Fin 160) (v : Byte) : (s.writeOam a v).cgb = s.cgb := rfl
@[simp] theorem writeOam_bgpri (a : Fin 160) (v : Byte) : (s.writeOam a v).bgpri = s.bgpri := rfl
@[simp] theorem writeOam_override (a : Fin 160) (v : Byte) : (s.writeOam a v).override = s.override := rfl

/-! ## raiseFault -/

@[simp] theorem raiseFault_params (c : FaultCode) : (raiseFault c s).params = s.params := rfl
@[simp] theorem raiseFault_mode (c : FaultCode) : (raiseFault c s).mode = s.mode := rfl
@[simp] theorem raiseFault_modeSet (c : FaultCode) : (raiseFault c s).modeSet = s.modeSet := rfl
@[simp] theorem raiseFault_fault (c : FaultCode) : (raiseFault c s).fault = if s.fault = 0#4 then c.bits else s.fault := rfl
@[simp] theorem raiseFault_mpal (c : FaultCode) : (raiseFault c s).mpal = s.mpal := rfl
@[simp] theorem raiseFault_cpal (c : FaultCode) : (raiseFault c s).cpal = s.cpal := rfl
@[simp] theorem raiseFault_pbOpen (c : FaultCode) : (raiseFault c s).pbOpen = s.pbOpen := rfl
@[simp] theorem raiseFault_pbLy (c : FaultCode) : (raiseFault c s).pbLy = s.pbLy := rfl
@[simp] theorem raiseFault_pbLySet (c : FaultCode) : (raiseFault c s).pbLySet = s.pbLySet := rfl
@[simp] theorem raiseFault_pb (c : FaultCode) : (raiseFault c s).pb = s.pb := rfl
@[simp] theorem raiseFault_fb (c : FaultCode) : (raiseFault c s).fb = s.fb := rfl
@[simp] theorem raiseFault_oam (c : FaultCode) : (raiseFault c s).oam = s.oam := rfl
@[simp] theorem raiseFault_vram0 (c : FaultCode) : (raiseFault c s).vram0 = s.vram0 := rfl
@[simp] theorem raiseFault_vram1 (c : FaultCode) : (raiseFault c s).vram1 = s.vram1 := rfl
@[simp] theorem raiseFault_inbox (c : FaultCode) : (raiseFault c s).inbox = s.inbox := rfl
@[simp] theorem raiseFault_res (c : FaultCode) : (raiseFault c s).res = faultWord (raiseFault c s).fault := rfl
@[simp] theorem raiseFault_freeCount (c : FaultCode) : (raiseFault c s).freeCount = s.freeCount := rfl
@[simp] theorem raiseFault_cgb (c : FaultCode) : (raiseFault c s).cgb = s.cgb := rfl
@[simp] theorem raiseFault_bgpri (c : FaultCode) : (raiseFault c s).bgpri = s.bgpri := rfl
@[simp] theorem raiseFault_override (c : FaultCode) : (raiseFault c s).override = s.override := rfl

/-! ## haltedResult -/

@[simp] theorem haltedResult_params : (haltedResult s).params = s.params := rfl
@[simp] theorem haltedResult_mode : (haltedResult s).mode = s.mode := rfl
@[simp] theorem haltedResult_modeSet : (haltedResult s).modeSet = s.modeSet := rfl
@[simp] theorem haltedResult_fault : (haltedResult s).fault = s.fault := rfl
@[simp] theorem haltedResult_mpal : (haltedResult s).mpal = s.mpal := rfl
@[simp] theorem haltedResult_cpal : (haltedResult s).cpal = s.cpal := rfl
@[simp] theorem haltedResult_pbOpen : (haltedResult s).pbOpen = s.pbOpen := rfl
@[simp] theorem haltedResult_pbLy : (haltedResult s).pbLy = s.pbLy := rfl
@[simp] theorem haltedResult_pbLySet : (haltedResult s).pbLySet = s.pbLySet := rfl
@[simp] theorem haltedResult_pb : (haltedResult s).pb = s.pb := rfl
@[simp] theorem haltedResult_fb : (haltedResult s).fb = s.fb := rfl
@[simp] theorem haltedResult_oam : (haltedResult s).oam = s.oam := rfl
@[simp] theorem haltedResult_vram0 : (haltedResult s).vram0 = s.vram0 := rfl
@[simp] theorem haltedResult_vram1 : (haltedResult s).vram1 = s.vram1 := rfl
@[simp] theorem haltedResult_inbox : (haltedResult s).inbox = s.inbox := rfl
@[simp] theorem haltedResult_res : (haltedResult s).res = faultWord s.fault := rfl
@[simp] theorem haltedResult_freeCount : (haltedResult s).freeCount = s.freeCount := rfl
@[simp] theorem haltedResult_cgb : (haltedResult s).cgb = s.cgb := rfl
@[simp] theorem haltedResult_bgpri : (haltedResult s).bgpri = s.bgpri := rfl
@[simp] theorem haltedResult_override : (haltedResult s).override = s.override := rfl

/-! ## writeVram -/

@[simp] theorem writeVram_params (b : Bool) (a : BitVec 16) (v : Byte) : (s.writeVram b a v).params = s.params := by
  unfold State.writeVram; split <;> rfl

@[simp] theorem writeVram_mode (b : Bool) (a : BitVec 16) (v : Byte) : (s.writeVram b a v).mode = s.mode := by
  unfold State.writeVram; split <;> rfl

@[simp] theorem writeVram_modeSet (b : Bool) (a : BitVec 16) (v : Byte) : (s.writeVram b a v).modeSet = s.modeSet := by
  unfold State.writeVram; split <;> rfl

@[simp] theorem writeVram_fault (b : Bool) (a : BitVec 16) (v : Byte) : (s.writeVram b a v).fault = s.fault := by
  unfold State.writeVram; split <;> rfl

@[simp] theorem writeVram_mpal (b : Bool) (a : BitVec 16) (v : Byte) : (s.writeVram b a v).mpal = s.mpal := by
  unfold State.writeVram; split <;> rfl

@[simp] theorem writeVram_cpal (b : Bool) (a : BitVec 16) (v : Byte) : (s.writeVram b a v).cpal = s.cpal := by
  unfold State.writeVram; split <;> rfl

@[simp] theorem writeVram_pbOpen (b : Bool) (a : BitVec 16) (v : Byte) : (s.writeVram b a v).pbOpen = s.pbOpen := by
  unfold State.writeVram; split <;> rfl

@[simp] theorem writeVram_pbLy (b : Bool) (a : BitVec 16) (v : Byte) : (s.writeVram b a v).pbLy = s.pbLy := by
  unfold State.writeVram; split <;> rfl

@[simp] theorem writeVram_pbLySet (b : Bool) (a : BitVec 16) (v : Byte) : (s.writeVram b a v).pbLySet = s.pbLySet := by
  unfold State.writeVram; split <;> rfl

@[simp] theorem writeVram_pb (b : Bool) (a : BitVec 16) (v : Byte) : (s.writeVram b a v).pb = s.pb := by
  unfold State.writeVram; split <;> rfl

@[simp] theorem writeVram_fb (b : Bool) (a : BitVec 16) (v : Byte) : (s.writeVram b a v).fb = s.fb := by
  unfold State.writeVram; split <;> rfl

@[simp] theorem writeVram_oam (b : Bool) (a : BitVec 16) (v : Byte) : (s.writeVram b a v).oam = s.oam := by
  unfold State.writeVram; split <;> rfl

@[simp] theorem writeVram_inbox (b : Bool) (a : BitVec 16) (v : Byte) : (s.writeVram b a v).inbox = s.inbox := by
  unfold State.writeVram; split <;> rfl

@[simp] theorem writeVram_res (b : Bool) (a : BitVec 16) (v : Byte) : (s.writeVram b a v).res = s.res := by
  unfold State.writeVram; split <;> rfl

@[simp] theorem writeVram_freeCount (b : Bool) (a : BitVec 16) (v : Byte) : (s.writeVram b a v).freeCount = s.freeCount := by
  unfold State.writeVram; split <;> rfl

@[simp] theorem writeVram_cgb (b : Bool) (a : BitVec 16) (v : Byte) : (s.writeVram b a v).cgb = s.cgb := by
  unfold State.writeVram; split <;> rfl

@[simp] theorem writeVram_bgpri (b : Bool) (a : BitVec 16) (v : Byte) : (s.writeVram b a v).bgpri = s.bgpri := by
  unfold State.writeVram; split <;> rfl

@[simp] theorem writeVram_override (b : Bool) (a : BitVec 16) (v : Byte) : (s.writeVram b a v).override = s.override := by
  unfold State.writeVram; split <;> rfl

/-! ## writePb -/

@[simp] theorem writePb_params (x : Byte) (ci : BitVec 2) (p : Bool) : (s.writePb x ci p).params = s.params := by
  unfold State.writePb; split <;> rfl

@[simp] theorem writePb_mode (x : Byte) (ci : BitVec 2) (p : Bool) : (s.writePb x ci p).mode = s.mode := by
  unfold State.writePb; split <;> rfl

@[simp] theorem writePb_modeSet (x : Byte) (ci : BitVec 2) (p : Bool) : (s.writePb x ci p).modeSet = s.modeSet := by
  unfold State.writePb; split <;> rfl

@[simp] theorem writePb_fault (x : Byte) (ci : BitVec 2) (p : Bool) : (s.writePb x ci p).fault = s.fault := by
  unfold State.writePb; split <;> rfl

@[simp] theorem writePb_mpal (x : Byte) (ci : BitVec 2) (p : Bool) : (s.writePb x ci p).mpal = s.mpal := by
  unfold State.writePb; split <;> rfl

@[simp] theorem writePb_cpal (x : Byte) (ci : BitVec 2) (p : Bool) : (s.writePb x ci p).cpal = s.cpal := by
  unfold State.writePb; split <;> rfl

@[simp] theorem writePb_pbOpen (x : Byte) (ci : BitVec 2) (p : Bool) : (s.writePb x ci p).pbOpen = s.pbOpen := by
  unfold State.writePb; split <;> rfl

@[simp] theorem writePb_pbLy (x : Byte) (ci : BitVec 2) (p : Bool) : (s.writePb x ci p).pbLy = s.pbLy := by
  unfold State.writePb; split <;> rfl

@[simp] theorem writePb_pbLySet (x : Byte) (ci : BitVec 2) (p : Bool) : (s.writePb x ci p).pbLySet = s.pbLySet := by
  unfold State.writePb; split <;> rfl

@[simp] theorem writePb_fb (x : Byte) (ci : BitVec 2) (p : Bool) : (s.writePb x ci p).fb = s.fb := by
  unfold State.writePb; split <;> rfl

@[simp] theorem writePb_oam (x : Byte) (ci : BitVec 2) (p : Bool) : (s.writePb x ci p).oam = s.oam := by
  unfold State.writePb; split <;> rfl

@[simp] theorem writePb_vram0 (x : Byte) (ci : BitVec 2) (p : Bool) : (s.writePb x ci p).vram0 = s.vram0 := by
  unfold State.writePb; split <;> rfl

@[simp] theorem writePb_vram1 (x : Byte) (ci : BitVec 2) (p : Bool) : (s.writePb x ci p).vram1 = s.vram1 := by
  unfold State.writePb; split <;> rfl

@[simp] theorem writePb_inbox (x : Byte) (ci : BitVec 2) (p : Bool) : (s.writePb x ci p).inbox = s.inbox := by
  unfold State.writePb; split <;> rfl

@[simp] theorem writePb_res (x : Byte) (ci : BitVec 2) (p : Bool) : (s.writePb x ci p).res = s.res := by
  unfold State.writePb; split <;> rfl

@[simp] theorem writePb_freeCount (x : Byte) (ci : BitVec 2) (p : Bool) : (s.writePb x ci p).freeCount = s.freeCount := by
  unfold State.writePb; split <;> rfl

@[simp] theorem writePb_cgb (x : Byte) (ci : BitVec 2) (p : Bool) : (s.writePb x ci p).cgb = s.cgb := by
  unfold State.writePb; split <;> rfl

@[simp] theorem writePb_bgpri (x : Byte) (ci : BitVec 2) (p : Bool) : (s.writePb x ci p).bgpri = s.bgpri := by
  unfold State.writePb; split <;> rfl

@[simp] theorem writePb_override (x : Byte) (ci : BitVec 2) (p : Bool) : (s.writePb x ci p).override = s.override := by
  unfold State.writePb; split <;> rfl

/-! ## writeFb -/

@[simp] theorem writeFb_params (x y : Byte) (ch : BitVec 2) (v : Byte) : (s.writeFb x y ch v).params = s.params := by
  unfold State.writeFb; split <;> rfl

@[simp] theorem writeFb_mode (x y : Byte) (ch : BitVec 2) (v : Byte) : (s.writeFb x y ch v).mode = s.mode := by
  unfold State.writeFb; split <;> rfl

@[simp] theorem writeFb_modeSet (x y : Byte) (ch : BitVec 2) (v : Byte) : (s.writeFb x y ch v).modeSet = s.modeSet := by
  unfold State.writeFb; split <;> rfl

@[simp] theorem writeFb_fault (x y : Byte) (ch : BitVec 2) (v : Byte) : (s.writeFb x y ch v).fault = s.fault := by
  unfold State.writeFb; split <;> rfl

@[simp] theorem writeFb_mpal (x y : Byte) (ch : BitVec 2) (v : Byte) : (s.writeFb x y ch v).mpal = s.mpal := by
  unfold State.writeFb; split <;> rfl

@[simp] theorem writeFb_cpal (x y : Byte) (ch : BitVec 2) (v : Byte) : (s.writeFb x y ch v).cpal = s.cpal := by
  unfold State.writeFb; split <;> rfl

@[simp] theorem writeFb_pbOpen (x y : Byte) (ch : BitVec 2) (v : Byte) : (s.writeFb x y ch v).pbOpen = s.pbOpen := by
  unfold State.writeFb; split <;> rfl

@[simp] theorem writeFb_pbLy (x y : Byte) (ch : BitVec 2) (v : Byte) : (s.writeFb x y ch v).pbLy = s.pbLy := by
  unfold State.writeFb; split <;> rfl

@[simp] theorem writeFb_pbLySet (x y : Byte) (ch : BitVec 2) (v : Byte) : (s.writeFb x y ch v).pbLySet = s.pbLySet := by
  unfold State.writeFb; split <;> rfl

@[simp] theorem writeFb_pb (x y : Byte) (ch : BitVec 2) (v : Byte) : (s.writeFb x y ch v).pb = s.pb := by
  unfold State.writeFb; split <;> rfl

@[simp] theorem writeFb_oam (x y : Byte) (ch : BitVec 2) (v : Byte) : (s.writeFb x y ch v).oam = s.oam := by
  unfold State.writeFb; split <;> rfl

@[simp] theorem writeFb_vram0 (x y : Byte) (ch : BitVec 2) (v : Byte) : (s.writeFb x y ch v).vram0 = s.vram0 := by
  unfold State.writeFb; split <;> rfl

@[simp] theorem writeFb_vram1 (x y : Byte) (ch : BitVec 2) (v : Byte) : (s.writeFb x y ch v).vram1 = s.vram1 := by
  unfold State.writeFb; split <;> rfl

@[simp] theorem writeFb_inbox (x y : Byte) (ch : BitVec 2) (v : Byte) : (s.writeFb x y ch v).inbox = s.inbox := by
  unfold State.writeFb; split <;> rfl

@[simp] theorem writeFb_res (x y : Byte) (ch : BitVec 2) (v : Byte) : (s.writeFb x y ch v).res = s.res := by
  unfold State.writeFb; split <;> rfl

@[simp] theorem writeFb_freeCount (x y : Byte) (ch : BitVec 2) (v : Byte) : (s.writeFb x y ch v).freeCount = s.freeCount := by
  unfold State.writeFb; split <;> rfl

@[simp] theorem writeFb_cgb (x y : Byte) (ch : BitVec 2) (v : Byte) : (s.writeFb x y ch v).cgb = s.cgb := by
  unfold State.writeFb; split <;> rfl

@[simp] theorem writeFb_bgpri (x y : Byte) (ch : BitVec 2) (v : Byte) : (s.writeFb x y ch v).bgpri = s.bgpri := by
  unfold State.writeFb; split <;> rfl

@[simp] theorem writeFb_override (x y : Byte) (ch : BitVec 2) (v : Byte) : (s.writeFb x y ch v).override = s.override := by
  unfold State.writeFb; split <;> rfl

end Sys2Proof.Machine
end

