-- ==== Sys2Proof/Laws/Ops.lean ====
section
/-! SUPPORT. What each shared operation can do: Priority Buffer queries, frame-buffer writes, and the parts of SC.RENDER, which
differ from their start at most in the frame buffer and in the count of free values (R196). -/

namespace Sys2Proof.Machine

/-- A query that finds a live entry returns it (R164). -/
theorem readPb_live {s : State} {x ly : Byte} {e : PbEntry} (h : s.pbEntryAt x ly = some e) :
    s.readPb x ly = ((e.ci, e.prio), s) := by
  simp [State.readPb, h]

/-- A query that finds none returns a free value and counts it (R165). -/
theorem readPb_missing {s : State} {x ly : Byte} (h : s.pbEntryAt x ly = none) :
    s.readPb x ly = (((Config.freePbEntry s.freeCount).extractLsb' 0 2, (Config.freePbEntry s.freeCount).getLsbD 2),
      s.drawFree) := by
  simp [State.readPb, h]

/-- All a query does to the state. -/
theorem readPb_state (s : State) (x ly : Byte) : (s.readPb x ly).2 = s ∨ (s.readPb x ly).2 = s.drawFree := by
  cases h : s.pbEntryAt x ly with
  | some e => exact .inl (by rw [readPb_live h])
  | none => exact .inr (by rw [readPb_missing h])

/-- When a query finds an entry (R164). -/
theorem pbEntryAt_eq_some {s : State} {x ly : Byte} {e : PbEntry} :
    s.pbEntryAt x ly = some e ↔
      s.pbOpen = true ∧ ly = s.pbLy ∧ x.toNat < s.params.screenW ∧ s.pb[x.toNat]? = some e ∧ e.valid = true := by
  unfold State.pbEntryAt
  split
  · rw [Option.filter_eq_some_iff]; tauto
  · simp only [reduceCtorEq, false_iff]; tauto

/-- A channel after a write to the frame buffer (R220 to R222). -/
theorem fbAt_writeFb (s : State) (x y : Byte) (ch : BitVec 2) (v : Byte) (x' y' : Byte) (ch' : BitVec 2) :
    (s.writeFb x y ch v).fbAt x' y' ch' =
      if onFrame s.params x y ch = true ∧ x' = x ∧ y' = y ∧ ch' = ch then some v else s.fbAt x' y' ch' := by
  unfold State.writeFb State.fbAt
  cases h : onFrame s.params x y ch
  · simp
  · simp only [↓reduceIte, cellAt_putCell, fbKey_inj, true_and]

/-- The frame test as inequalities (R220). -/
@[simp] theorem onFrame_eq_true {p : Params} {x y : Byte} {ch : BitVec 2} :
    onFrame p x y ch = true ↔ x.toNat < p.screenW ∧ y.toNat < p.screenH ∧ ch.toNat < 3 := by
  simp [onFrame, and_assoc]

/-- `t` differs from `s` at most in the frame buffer and in the count of free values drawn: what a part of SC.RENDER may do
(R196). -/
def SameButFrame (s t : State) : Prop := t = { s with fb := t.fb, freeCount := t.freeCount }

theorem SameButFrame.refl (s : State) : SameButFrame s s := rfl

theorem SameButFrame.trans {s t u : State} (h : SameButFrame s t) (h' : SameButFrame t u) : SameButFrame s u := by
  unfold SameButFrame at *
  rw [h'] ; rw [h]

theorem SameButFrame.drawFree (s : State) : SameButFrame s s.drawFree := rfl

theorem SameButFrame.writeFb (s : State) (x y : Byte) (ch : BitVec 2) (v : Byte) :
    SameButFrame s (s.writeFb x y ch v) := by
  unfold State.writeFb; split <;> rfl

theorem SameButFrame.writePixel (s : State) (x ly : Byte) (v : Channels) : SameButFrame s (s.writePixel x ly v) :=
  ((SameButFrame.writeFb ..).trans (.writeFb ..)).trans (.writeFb ..)

/-- All the shown test does to the state. -/
theorem pixelShown_state (s : State) (attr ly x : Byte) :
    (s.pixelShown attr ly x).2 = s ∨ (s.pixelShown attr ly x).2 = s.drawFree := by
  unfold State.pixelShown
  split
  · exact .inl rfl
  · exact readPb_state s x ly

theorem SameButFrame.pixelShown (s : State) (attr ly x : Byte) : SameButFrame s (s.pixelShown attr ly x).2 := by
  rcases pixelShown_state s attr ly x with h | h <;> rw [h]
  · exact .refl s
  · exact .drawFree s

/-- `drawPixel` is the shown test followed, if it says so, by the three writes. -/
theorem drawPixel_eq (s : State) (attr ly x : Byte) (ci : BitVec 2) :
    s.drawPixel attr ly x ci =
      if (s.pixelShown attr ly x).1 then
        (s.pixelShown attr ly x).2.writePixel x ly ((s.pixelShown attr ly x).2.pixelChannels attr ci)
      else (s.pixelShown attr ly x).2 := by
  unfold State.drawPixel
  cases h : s.pixelShown attr ly x with
  | mk b t => cases b <;> simp

theorem SameButFrame.drawPixel (s : State) (attr ly x : Byte) (ci : BitVec 2) :
    SameButFrame s (s.drawPixel attr ly x ci) := by
  rw [drawPixel_eq]
  split
  · exact (SameButFrame.pixelShown ..).trans (.writePixel ..)
  · exact .pixelShown ..

theorem SameButFrame.drawColumn (s : State) (attr ly left b0 b1 : Byte) (c : BitVec 3) :
    SameButFrame s (s.drawColumn attr ly left b0 b1 c) := by
  unfold State.drawColumn
  simp only
  split
  · exact .refl s
  · exact .drawPixel ..

/-- A relation that holds of a state and itself, composes, and holds across one pass of a loop, holds across the loop. -/
theorem foldl_relation {α : Type} {R : State → State → Prop} (hrefl : ∀ s, R s s)
    (htrans : ∀ {s t u}, R s t → R t u → R s u) {f : State → α → State} (hf : ∀ s a, R s (f s a)) (l : List α)
    (s : State) : R s (l.foldl f s) := by
  induction l generalizing s with
  | nil => exact hrefl s
  | cons a l ih => exact htrans (hf s a) (ih _)

/-- What holds before a loop and is kept by each pass holds after it. -/
theorem foldl_invariant {α : Type} {P : State → Prop} {f : State → α → State} (l : List α)
    (hf : ∀ s, ∀ a ∈ l, P s → P (f s a)) (s : State) (h : P s) : P (l.foldl f s) := by
  induction l generalizing s with
  | nil => exact h
  | cons a l ih => exact ih (fun s b hb => hf s b (List.mem_cons_of_mem _ hb)) _ (hf s a (by simp) h)

theorem SameButFrame.drawSprite (ly : Byte) (tall : Bool) (s : State) (i : Nat) :
    SameButFrame s (s.drawSprite ly tall i) := by
  unfold State.drawSprite
  simp only
  split
  · exact foldl_relation SameButFrame.refl .trans (fun s c => .drawColumn s _ _ _ _ _ c) _ s
  · exact .refl s

theorem SameButFrame.renderSprites (s : State) (ly : Byte) (tall : Bool) : SameButFrame s (s.renderSprites ly tall) :=
  foldl_relation SameButFrame.refl .trans (SameButFrame.drawSprite ly tall) _ s

/-- The fields that `SameButFrame` keeps. -/
theorem SameButFrame.fields {s t : State} (h : SameButFrame s t) :
    t.params = s.params ∧ t.mode = s.mode ∧ t.mpal = s.mpal ∧ t.cpal = s.cpal ∧ t.pbOpen = s.pbOpen ∧ t.pbLy = s.pbLy ∧
    t.pb = s.pb ∧ t.oam = s.oam ∧ t.vram0 = s.vram0 ∧ t.vram1 = s.vram1 := by
  rw [h]; simp

/-- `SameButFrame` and a result written after it. -/
theorem SameButFrame.setRes_eq {s t : State} (h : SameButFrame s t) (v : Word) :
    t.setRes v = { s with fb := (t.setRes v).fb, res := v, freeCount := (t.setRes v).freeCount } := by
  unfold State.setRes; rw [h]

/-- The three channel values by channel id. -/
def Channels.get (v : Channels) (ch : BitVec 2) : Byte :=
  if ch = 0#2 then v.ch0 else if ch = 1#2 then v.ch1 else v.ch2

/-- A channel after the three writes of a pixel (R195). -/
theorem fbAt_writePixel (s : State) (x ly : Byte) (v : Channels) (x' y' : Byte) (ch' : BitVec 2) :
    (s.writePixel x ly v).fbAt x' y' ch' =
      if x' = x ∧ y' = ly ∧ onFrame s.params x ly ch' = true then some (v.get ch') else s.fbAt x' y' ch' := by
  unfold State.writePixel
  rw [fbAt_writeFb, fbAt_writeFb, fbAt_writeFb]
  simp only [writeFb_params, onFrame_eq_true, Channels.get]
  by_cases hx : x' = x <;> by_cases hy : y' = ly <;> simp [hx, hy]
  rcases (by decide : ∀ c : BitVec 2, c = 0#2 ∨ c = 1#2 ∨ c = 2#2 ∨ c = 3#2) ch' with rfl | rfl | rfl | rfl <;> simp

/-- Two runs of one loop stay related if each pass keeps the relation. -/
theorem foldl_lockstep {α : Type} {R : State → State → Prop} {f : State → α → State}
    (hf : ∀ s u a, R s u → R (f s a) (f u a)) (l : List α) (s u : State) (h : R s u) : R (l.foldl f s) (l.foldl f u) := by
  induction l generalizing s u with
  | nil => exact h
  | cons a l ih => exact ih _ _ (hf _ _ _ h)

/-- A change of state that each pass of a loop commutes with, the loop commutes with. -/
theorem foldl_commute {α : Type} {P : State → Prop} {g : State → State} {f : State → α → State}
    (hP : ∀ s a, P s → P (f s a)) (hf : ∀ s a, P s → f (g s) a = g (f s a)) (l : List α) (s : State) (h : P s) :
    l.foldl f (g s) = g (l.foldl f s) := by
  induction l generalizing s with
  | nil => rfl
  | cons a l ih => rw [List.foldl_cons, List.foldl_cons, hf _ _ h]; exact ih _ (hP _ _ h)

/-- A loop whose every pass changes nothing changes nothing. -/
theorem foldl_id {α : Type} (f : State → α → State) (l : List α) (s : State) (h : ∀ a ∈ l, f s a = s) : l.foldl f s = s := by
  induction l with
  | nil => rfl
  | cons a l ih => rw [List.foldl_cons, h a (by simp)]; exact ih fun b hb => h b (by simp [hb])

/-- SC.RENDER's loop over the sprites. Cite it and generalize `renderSprites` in proofs: unfolded, it is 40 sprites long. -/
theorem renderSprites_fold (s : State) (ly : Byte) (tall : Bool) :
    s.renderSprites ly tall = spriteOrder.foldl (State.drawSprite ly tall) s := rfl

/-- The test whether a pixel is shown leaves the frame buffer as it is (R196). -/
@[simp] theorem fbAt_pixelShown (s : State) (attr ly x x' y' : Byte) (ch' : BitVec 2) :
    (s.pixelShown attr ly x).2.fbAt x' y' ch' = s.fbAt x' y' ch' := by
  rcases pixelShown_state s attr ly x with h | h <;> rw [h]; rfl

/-- SC.RENDER leaves every other row (R196). -/
theorem fbAt_renderSprites_other (s : State) {ly y : Byte} (tall : Bool) (x : Byte) (ch : BitVec 2) (h : y ≠ ly) :
    (s.renderSprites ly tall).fbAt x y ch = s.fbAt x y ch := by
  rw [renderSprites_fold]
  refine foldl_invariant (P := fun t => t.fbAt x y ch = s.fbAt x y ch) _ (fun t i _ ht => ?_) s rfl
  unfold State.drawSprite
  simp only
  split
  · refine foldl_invariant (P := fun t => t.fbAt x y ch = s.fbAt x y ch) _ (fun u c _ hu => ?_) t ht
    unfold State.drawColumn
    simp only
    split
    · exact hu
    · rw [drawPixel_eq]
      split <;> simp [fbAt_writePixel, h, hu]
  · exact ht

end Sys2Proof.Machine
end

