-- ==== Sys2Proof/Laws/Exec.lean ====
section
/-! SUPPORT. What a command word can do in a step, said once (R111, R263, R264). -/

namespace Sys2Proof.Machine

/-- SC.RENDER is its sprite pass and the result 0 (R197). -/
theorem exec_scRender (s : State) (ly : Byte) (tall : Bool) :
    exec (.scRender ly tall) s = .next ((s.renderSprites ly tall).setRes 0#32) := rfl

/-- The result word is no part of the frame buffer. -/
@[simp] theorem fbAt_setRes (s : State) (v : Word) (x y : Byte) (ch : BitVec 2) : (s.setRes v).fbAt x y ch = s.fbAt x y ch := rfl

/-- A step happens only in a machine with legal parameters. -/
theorem step_wf {s t : State} (h : step s = .next t) : s.params.wf = true := by
  unfold step at h; split at h
  · assumption
  · cases h

/-- A step that meets a command word runs it (R111). -/
theorem step_command {s : State} {w : Word} {rest : List Input} (hw : s.params.wf = true) (hi : s.inbox = .command w :: rest) :
    step s = runCommand w { s with inbox := rest } := by
  simp [step, hw, takeNextInput, hi, takeInput]

/-- The word of STATUS.RD. -/
theorem status_decodes : decode 0x1C000000#32 = .ok .statusRd := by decide

/-- All an instruction can do to FAULT: keep it, or raise a fault and do nothing else (R263). -/
theorem fault_of_exec {i : Instr} {s t : State} (h : exec i s = .next t) :
    t.fault = s.fault ∨ ∃ c : FaultCode, c ≠ .badTable ∧ t = raiseFault c s := by
  cases i
  case palResolve m l sel ci =>
    simp only [exec, execPalResolve] at h
    split at h
    · injection h with h; subst h; exact .inl rfl
    · split at h
      · injection h with h; subst h; exact .inr ⟨_, by decide, rfl⟩
      · injection h with h; subst h; exact .inl rfl
  case tileRowsel row tall y =>
    simp only [exec, execTileRowsel] at h
    split at h
    · injection h with h; subst h; exact .inr ⟨_, by decide, rfl⟩
    · injection h with h; subst h; exact .inl rfl
  case tileFetch a b off =>
    simp only [exec, execTileFetch] at h
    split at h
    · injection h with h; subst h; exact .inr ⟨_, by decide, rfl⟩
    · split at h
      · injection h with h; subst h; exact .inr ⟨_, by decide, rfl⟩
      · injection h with h; subst h; exact .inl rfl
  case statusRd =>
    injection h with h; subst h
    simp only [setRes_fault]; split <;> exact .inl rfl
  case pbRead x ly =>
    simp only [exec, execPbRead] at h
    injection h with h; subst h
    have := readPb_state s x ly
    rcases this with h | h <;> simp [h]
  case fbRead x y ch =>
    simp only [exec, execFbRead] at h
    injection h with h; subst h
    simp only [setRes_fault, State.readFb]
    split <;> exact .inl rfl
  case scRender ly tall =>
    rw [exec_scRender] at h
    injection h with h
    have := SameButFrame.renderSprites s ly tall
    rw [← h, setRes_fault, this]; exact .inl rfl
  case fbWrite x y ch v => injection h with h; subst h; simp
  case pbWrite x ci p => injection h with h; subst h; simp
  all_goals (injection h with h; subst h; exact .inl rfl)

/-- All a step can do with a command word, in the order of R264. -/
theorem command_cases {s t : State} {w : Word} {rest : List Input} (hi : s.inbox = .command w :: rest) (h : step s = .next t) :
    let s' := { s with inbox := rest }
    (w = 0x1C000000#32 ∧ exec .statusRd s' = .next t) ∨
    (w ≠ 0x1C000000#32 ∧ s.fault ≠ 0#4 ∧ t = haltedResult s') ∨
    (w ≠ 0x1C000000#32 ∧ s.fault = 0#4 ∧ (∃ r, decode w = .error r) ∧ t = raiseFault .illegalOp s') ∨
    (w ≠ 0x1C000000#32 ∧ s.fault = 0#4 ∧ ∃ i, decode w = .ok i ∧ exec i s' = .next t) := by
  rw [step_command (step_wf h) hi, runCommand] at h
  simp only
  by_cases hw : w = 0x1C000000#32
  · simp [hw] at h; exact .inl ⟨hw, h⟩
  · simp only [hw, if_false, State.halted] at h
    by_cases hf : s.fault = 0#4
    · have hb : (s.fault != 0#4) = false := by simp [hf]
      simp only [hb, Bool.false_eq_true, if_false] at h
      cases hd : decode w with
      | error r => simp only [hd] at h; injection h with h; exact .inr (.inr (.inl ⟨hw, hf, ⟨r, rfl⟩, h.symm⟩))
      | ok i => simp only [hd] at h; exact .inr (.inr (.inr ⟨hw, hf, i, rfl, h⟩))
    · have : (s.fault != 0#4) = true := by simpa using hf
      simp only [this, if_true] at h
      injection h with h
      exact .inr (.inl ⟨hw, hf, h.symm⟩)

/-- All an instruction can do to the frame buffer: FB.WRITE one channel, SC.RENDER its row, any other nothing (R112). -/
theorem fb_of_exec {i : Instr} {s t : State} (h : exec i s = .next t) :
    t.fb = s.fb ∨ (∃ x y ch v, i = .fbWrite x y ch v ∧ t.fb = (s.writeFb x y ch v).fb) ∨
      ∃ ly tall, i = .scRender ly tall ∧ t.fb = (s.renderSprites ly tall).fb := by
  cases i
  case fbWrite x y ch v => injection h with h; subst h; exact .inr (.inl ⟨_, _, _, _, rfl, rfl⟩)
  case scRender ly tall =>
    rw [exec_scRender] at h; injection h with h; subst h
    exact .inr (.inr ⟨ly, tall, rfl, setRes_fb _ _⟩)
  case palResolve m l sel ci =>
    left
    simp only [exec, execPalResolve] at h
    split at h
    · injection h with h; subst h; rfl
    · split at h <;> (injection h with h; subst h; rfl)
  case tileRowsel row tall y =>
    left
    simp only [exec, execTileRowsel] at h
    split at h <;> (injection h with h; subst h; rfl)
  case tileFetch a b off =>
    left
    simp only [exec, execTileFetch] at h
    split at h
    · injection h with h; subst h; rfl
    · split at h <;> (injection h with h; subst h; rfl)
  case pbRead x ly =>
    left
    simp only [exec, execPbRead] at h
    injection h with h; subst h
    rcases readPb_state s x ly with h | h <;> simp [h]
  case fbRead x y ch =>
    left
    simp only [exec, execFbRead] at h
    injection h with h; subst h
    simp only [setRes_fb, State.readFb]; split <;> rfl
  case pbWrite x ci p =>
    left
    simp only [exec, execPbWrite] at h
    injection h with h; subst h
    simp
  case statusRd =>
    left
    simp only [exec, execStatusRd] at h
    injection h with h; subst h
    simp only [setRes_fb]; split <;> rfl
  all_goals (left; injection h with h; subst h; rfl)

end Sys2Proof.Machine
end

