-- ==== Sys2Proof/Laws/Contract.lean ====
section
/-! SUPPORT. What it says of an input that an agent may deliver it, or that it keeps the caller contract (R275, R303), and that a
row of the frame stays outside its pass (R296, R297). -/

namespace Sys2Proof.Machine

/-- An input that keeps the contract is within its agent's row and breaks none of R292 and R295 to R299. -/
theorem input_eq_some {k k' : Contract} {a : Agent} {s : State} {e : Input} (h : k.input a s e = some k') :
    a.mayDeliver e = true ∧ a.mustNotDeliver k.phase e = false ∧ k.sequence a s e = some k' := by
  unfold Contract.input at h
  split at h
  · rename_i hr
    simp only [Agent.withinRow, Bool.and_eq_true, Bool.not_eq_true'] at hr
    exact ⟨hr.1, hr.2, h⟩
  · cases h

/-- A command word met by a block that is not halted is one command under the contract. -/
theorem sequence_command (k : Contract) (a : Agent) {s : State} {w : Word} {i : Instr} (hh : s.halted = false)
    (hd : decode w = .ok i) : k.sequence a s (.command w) = k.command a s i := by
  simp [Contract.sequence, hh, hd]

/-- A step on a word its agent may deliver runs the instruction it decodes to, or meets a halted block, which runs STATUS.RD
alone (R264). -/
theorem delivered_command_cases {a : Agent} {s t : State} {w : Word} {rest : List Input}
    (hi : s.inbox = .command w :: rest) (hm : a.mayDeliver (.command w) = true) (h : step s = .next t) :
    ∃ i, decode w = .ok i ∧ a.mayIssue i = true ∧
      (t = haltedResult { s with inbox := rest } ∨
        (s.halted = false ∨ i = .statusRd) ∧ exec i { s with inbox := rest } = .next t) := by
  simp only [Agent.mayDeliver] at hm
  cases hd : decode w with
  | error r => rw [hd] at hm; cases hm
  | ok i =>
    rw [hd] at hm
    refine ⟨i, rfl, hm, ?_⟩
    rcases command_cases hi h with ⟨hw, h⟩ | ⟨-, -, h⟩ | ⟨-, -, ⟨r, hr⟩, -⟩ | ⟨-, h0, j, hj, h⟩
    · rw [hw, status_decodes] at hd; cases hd; exact .inr ⟨.inr rfl, h⟩
    · exact .inl h
    · rw [hr] at hd; cases hd
    · rw [hj] at hd; cases hd; exact .inr ⟨.inl (by simp [State.halted, h0]), h⟩

/-- What an SC.RENDER that keeps the contract meets and leaves. -/
theorem command_scRender_eq_some {k k' : Contract} {a : Agent} {s : State} {ly : Byte} {tall : Bool} :
    k.command a s (.scRender ly tall) = some k' ↔ k.mayRender s ly tall ∧ { k with phase := .composed ly } = k' := by
  simp [Contract.command]

/-- A renderer's FB.WRITE that keeps the contract stands in the background pass of its row and leaves the record as it is. -/
theorem command_renderer_fbWrite_eq_some {k k' : Contract} {s : State} {x y v : Byte} {ch : BitVec 2} :
    k.command .backgroundRenderer s (.fbWrite x y ch v) = some k' ↔ k.phase = .background y ∧ k = k' := by
  simp [Contract.command, Contract.mayWriteRow]

/-- SC.RENDER's work for a sprite, by the tests and the tile row the contract asks about (R182 to R195). -/
theorem drawSprite_eq (ly : Byte) (tall : Bool) (s : State) (i : Nat) :
    s.drawSprite ly tall i =
      if s.spriteOnLine ly tall i then
        columnOrder.foldl (State.drawColumn (s.oamByte (4 * i + 3)) ly (spriteLeft (s.oamByte (4 * i + 1)))
          (s.vramByte (s.spriteRowAt ly tall i).1 (s.spriteRowAt ly tall i).2)
          (s.vramByte (s.spriteRowAt ly tall i).1 ((s.spriteRowAt ly tall i).2 + 1#16))) s
      else s := rfl

/-- Every byte of OAM and both bytes of each tile row that a visible sprite selects are in the record (R292 (3)). -/
theorem memoryReady_eq_true {k : Contract} {s : State} {ly : Byte} {tall : Bool} :
    k.memoryReady s ly tall = true ↔
      (∀ off : Fin 160, off ∈ k.oamWritten) ∧
      ∀ i, i < 40 → s.spriteOnLine ly tall i = true →
        s.spriteRowAt ly tall i ∈ k.vramWritten ∧
        ((s.spriteRowAt ly tall i).1, (s.spriteRowAt ly tall i).2 + 1#16) ∈ k.vramWritten := by
  simp [Contract.memoryReady, spriteOrder, Config.oamEntries, or_iff_not_imp_left]

/-- Only a background pass bars configuration and memory writes (R299). -/
@[simp] theorem mayConfigure_eq_false {k : Contract} : k.mayConfigure = false ↔ k.phase.inBackground = true := by
  simp [Contract.mayConfigure]

/-- R296, R297: outside the background pass of row `y` no input that keeps the contract changes the row, so what the sprite pass
left there stays until the row's next pass. Not so for the display layer, which R275 forbids no FB.WRITE, and reset (R36). -/
theorem row_stays_outside_its_pass {k k' : Contract} {a : Agent} {s t : State} {e : Input} {rest : List Input} {y : Byte}
    (hi : s.inbox = e :: rest) (ha : a ≠ .displayLayer) (he : e ≠ .reset) (hp : k.phase ≠ .background y)
    (hk : k.input a s e = some k') (h : step s = .next t) (x : Byte) (ch : BitVec 2) : t.fbAt x y ch = s.fbAt x y ch := by
  obtain ⟨hm, -, hq⟩ := input_eq_some hk
  cases e with
  | reset => exact absurd rfl he
  | oamWrite off v =>
    simp only [step, step_wf h, takeNextInput, hi, if_true, takeInput] at h
    injection h with h; subst h; rfl
  | vramWrite bank ad v =>
    simp only [step, step_wf h, takeNextInput, hi, if_true, takeInput] at h
    injection h with h; subst h; simp [State.fbAt]
  | command w =>
    obtain ⟨i, hd, hmi, rfl | ⟨hh, ht⟩⟩ := delivered_command_cases hi hm h
    · rfl
    have hq (h0 : s.halted = false) : k.command a s i = some k' := by rwa [sequence_command k a h0 hd] at hq
    rcases fb_of_exec ht with hf | ⟨x', y', ch', v, rfl, hf⟩ | ⟨ly, tall, rfl, hf⟩
    · unfold State.fbAt; rw [hf]
    · have hr : a = .backgroundRenderer := by cases a <;> first | rfl | exact absurd rfl ha | cases hmi
      subst hr
      have hy : y ≠ y' := fun hy => hp (hy ▸ (command_renderer_fbWrite_eq_some.1 (hq (hh.resolve_right (by simp)))).1)
      unfold State.fbAt at *
      rw [hf]
      have := fbAt_writeFb { s with inbox := rest } x' y' ch' v x y ch
      rwa [if_neg fun hc => hy hc.2.2.1] at this
    · have hy : y ≠ ly := fun hy => hp (hy ▸ (command_scRender_eq_some.1 (hq (hh.resolve_right (by simp)))).1.1)
      have hx := fbAt_renderSprites_other { s with inbox := rest } tall x ch hy
      generalize State.renderSprites _ ly tall = u at hf hx
      rw [State.fbAt, hf]
      exact hx
end Sys2Proof.Machine
end

