-- ==== Sys2Proof/Laws/Encoding.lean ====
section
/-! SUPPORT. How placed operand fields read back, for the encoder and the decoder (R100, R103). -/

namespace Sys2Proof

/-- One bit of a placed field. -/
theorem getLsbD_placeField {n : Nat} (v : BitVec n) (lo k : Nat) :
    (placeField v lo).getLsbD k = (decide (k < 32) && decide (lo ≤ k) && v.getLsbD (k - lo)) := by
  simp only [placeField, BitVec.getLsbD_shiftLeft, BitVec.getLsbD_setWidth]
  by_cases h1 : k < 32
  · by_cases h2 : lo ≤ k
    · have h3 : ¬ k < lo := by omega
      have h4 : k - lo < 32 := by omega
      simp [h1, h2, h3, h4]
    · have h3 : k < lo := by omega
      simp [h2, h3]
  · simp [h1]

/-- A field read where it was placed. -/
theorem extract_placeField_same {n lo : Nat} (v : BitVec n) (h : n + lo ≤ 32) :
    (placeField v lo).extractLsb' lo n = v := by
  apply BitVec.eq_of_getLsbD_eq
  intro k hk
  rw [BitVec.getLsbD_extractLsb', getLsbD_placeField]
  have h1 : lo + k < 32 := by omega
  simp [hk, h1]

/-- A field read wholly beside where another was placed. -/
theorem extract_placeField_apart {n lo n' lo' : Nat} (v : BitVec n) (h : lo' + n' ≤ lo ∨ lo + n ≤ lo') :
    (placeField v lo).extractLsb' lo' n' = 0#n' := by
  apply BitVec.eq_of_getLsbD_eq
  intro k hk
  rw [BitVec.getLsbD_extractLsb', getLsbD_placeField]
  rcases h with h | h
  · have : ¬ lo ≤ lo' + k := by omega
    simp [this]
  · have : n ≤ lo' + k - lo := by omega
    simp [BitVec.getLsbD_of_ge v _ this]

/-- A bit read where it was placed. -/
theorem getLsbD_placeBit_same {lo : Nat} (b : Bool) (h : lo < 32) : (placeBit b lo).getLsbD lo = b := by
  rw [placeBit, getLsbD_placeField]; simp [h]

/-- A bit beside a placed field is 0. -/
theorem getLsbD_placeField_apart {n lo k : Nat} (v : BitVec n) (h : k < lo ∨ lo + n ≤ k) :
    (placeField v lo).getLsbD k = false := by
  rw [getLsbD_placeField]
  rcases h with h | h
  · have : ¬ lo ≤ k := by omega
    simp [this]
  · have : n ≤ k - lo := by omega
    simp [BitVec.getLsbD_of_ge v _ this]

/-- A bit beside a placed bit is 0. -/
theorem getLsbD_placeBit_apart {lo k : Nat} (b : Bool) (h : k < lo ∨ lo + 1 ≤ k) : (placeBit b lo).getLsbD k = false :=
  getLsbD_placeField_apart _ h

/-- A field read beside a placed bit is 0. -/
theorem extract_placeBit_apart {lo n' lo' : Nat} (b : Bool) (h : lo' + n' ≤ lo ∨ lo + 1 ≤ lo') :
    (placeBit b lo).extractLsb' lo' n' = 0#n' := extract_placeField_apart _ h

/-- A mask with no bit in a field's place clears the field. -/
theorem placeField_and_mask {n lo : Nat} (v : BitVec n) {m : Word} (h : m.extractLsb' lo n = 0#n) :
    placeField v lo &&& m = 0#32 := by
  apply BitVec.eq_of_getLsbD_eq
  intro k hk
  rw [BitVec.getLsbD_and, getLsbD_placeField]
  by_cases h1 : lo ≤ k
  · by_cases h2 : k - lo < n
    · have := congrArg (fun b => b.getLsbD (k - lo)) h
      simp only [BitVec.getLsbD_extractLsb', h2, decide_true, Bool.true_and, BitVec.getLsbD_zero] at this
      rw [show lo + (k - lo) = k by omega] at this
      simp [this]
    · simp [BitVec.getLsbD_of_ge v _ (by omega : n ≤ k - lo)]
  · simp [h1]

/-- A mask with no bit in a bit's place clears it. -/
theorem placeBit_and_mask {lo : Nat} (b : Bool) {m : Word} (h : m.extractLsb' lo 1 = 0#1) :
    placeBit b lo &&& m = 0#32 := placeField_and_mask _ h

/-- The operands leave the `op` bits 0. -/
theorem argBits_op (i : Instr) : (argBits i).extractLsb' 26 6 = 0#6 := by
  cases i <;>
    simp (disch := decide) only [argBits, BitVec.extractLsb'_or, extract_placeField_apart, extract_placeBit_apart, BitVec.or_zero] <;> rfl

/-- The `op` of an encoded word (R102). -/
theorem opField_encode (i : Instr) : opField (encode i) = opcodeBits i.opcode := by
  rw [opField, encode, BitVec.extractLsb'_or, argBits_op, extract_placeField_same _ (by decide), BitVec.or_zero]

/-- An encoded word's operation (R102). -/
theorem opcodeOf_encode (i : Instr) : opcodeOf (encode i) = some i.opcode := by
  rw [opcodeOf, opField_encode]
  cases i.opcode <;> decide

end Sys2Proof
end

