-- ==== Sys2Proof/Laws/PerInstr.lean ====
section
/-! SUPPORT. The family EncodeMatchesRow: an encoded instruction has the fixed bits of its row of R103, and every reserved bit
0. -/

namespace Sys2Proof

/-- The encoding of `i` is a word of `i`'s row (R103). -/
def Laws.EncodeMatchesRow.Statement (i : Instr) : Prop := encode i &&& opcodeMask i.opcode = opcodeMatch i.opcode

theorem Laws.EncodeMatchesRow.modeWr (cgb : Bool) (bgpri : Bool) : Laws.EncodeMatchesRow.Statement (.modeWr cgb bgpri) := by
  simp (disch := decide) only [Laws.EncodeMatchesRow.Statement, encode, argBits, Instr.opcode, opcodeMask,
    BitVec.and_or_distrib_right, placeBit_and_mask, BitVec.or_zero]
  rfl

theorem Laws.EncodeMatchesRow.mpalWr (sel : BitVec 1) (data : Byte) : Laws.EncodeMatchesRow.Statement (.mpalWr sel data) := by
  simp (disch := decide) only [Laws.EncodeMatchesRow.Statement, encode, argBits, Instr.opcode, opcodeMask,
    BitVec.and_or_distrib_right, placeField_and_mask, BitVec.or_zero]
  rfl

theorem Laws.EncodeMatchesRow.cpalWr (isSprite : Bool) (pal : BitVec 3) (ci : BitVec 2) (rgb15 : BitVec 15) : Laws.EncodeMatchesRow.Statement (.cpalWr isSprite pal ci rgb15) := by
  simp (disch := decide) only [Laws.EncodeMatchesRow.Statement, encode, argBits, Instr.opcode, opcodeMask,
    BitVec.and_or_distrib_right, placeField_and_mask, placeBit_and_mask, BitVec.or_zero]
  rfl

theorem Laws.EncodeMatchesRow.statusRd : Laws.EncodeMatchesRow.Statement .statusRd := by
  unfold Laws.EncodeMatchesRow.Statement; decide

theorem Laws.EncodeMatchesRow.palResolve (mode : Bool) (isSprite : Bool) (sel : BitVec 3) (ci : BitVec 2) : Laws.EncodeMatchesRow.Statement (.palResolve mode isSprite sel ci) := by
  simp (disch := decide) only [Laws.EncodeMatchesRow.Statement, encode, argBits, Instr.opcode, opcodeMask,
    BitVec.and_or_distrib_right, placeField_and_mask, placeBit_and_mask, BitVec.or_zero]
  rfl

theorem Laws.EncodeMatchesRow.palSplit (rgb15 : BitVec 15) : Laws.EncodeMatchesRow.Statement (.palSplit rgb15) := by
  simp (disch := decide) only [Laws.EncodeMatchesRow.Statement, encode, argBits, Instr.opcode, opcodeMask,
    BitVec.and_or_distrib_right, placeField_and_mask, BitVec.or_zero]
  rfl

theorem Laws.EncodeMatchesRow.tileRowsel (row : BitVec 4) (tall : Bool) (yflip : Bool) : Laws.EncodeMatchesRow.Statement (.tileRowsel row tall yflip) := by
  simp (disch := decide) only [Laws.EncodeMatchesRow.Statement, encode, argBits, Instr.opcode, opcodeMask,
    BitVec.and_or_distrib_right, placeField_and_mask, placeBit_and_mask, BitVec.or_zero]
  rfl

theorem Laws.EncodeMatchesRow.tileFetch (tile : Byte) (bank : Bool) (off : BitVec 5) : Laws.EncodeMatchesRow.Statement (.tileFetch tile bank off) := by
  simp (disch := decide) only [Laws.EncodeMatchesRow.Statement, encode, argBits, Instr.opcode, opcodeMask,
    BitVec.and_or_distrib_right, placeField_and_mask, placeBit_and_mask, BitVec.or_zero]
  rfl

theorem Laws.EncodeMatchesRow.tilePixel (b0 : Byte) (b1 : Byte) (c : BitVec 3) (xflip : Bool) : Laws.EncodeMatchesRow.Statement (.tilePixel b0 b1 c xflip) := by
  simp (disch := decide) only [Laws.EncodeMatchesRow.Statement, encode, argBits, Instr.opcode, opcodeMask,
    BitVec.and_or_distrib_right, placeField_and_mask, placeBit_and_mask, BitVec.or_zero]
  rfl

theorem Laws.EncodeMatchesRow.pbBegin (ly : Byte) : Laws.EncodeMatchesRow.Statement (.pbBegin ly) := by
  simp (disch := decide) only [Laws.EncodeMatchesRow.Statement, encode, argBits, Instr.opcode, opcodeMask,
    BitVec.and_or_distrib_right, placeField_and_mask, BitVec.or_zero]
  rfl

theorem Laws.EncodeMatchesRow.pbWrite (x : Byte) (ci : BitVec 2) (prio : Bool) : Laws.EncodeMatchesRow.Statement (.pbWrite x ci prio) := by
  simp (disch := decide) only [Laws.EncodeMatchesRow.Statement, encode, argBits, Instr.opcode, opcodeMask,
    BitVec.and_or_distrib_right, placeField_and_mask, placeBit_and_mask, BitVec.or_zero]
  rfl

theorem Laws.EncodeMatchesRow.pbRead (x : Byte) (ly : Byte) : Laws.EncodeMatchesRow.Statement (.pbRead x ly) := by
  simp (disch := decide) only [Laws.EncodeMatchesRow.Statement, encode, argBits, Instr.opcode, opcodeMask,
    BitVec.and_or_distrib_right, placeField_and_mask, BitVec.or_zero]
  rfl

theorem Laws.EncodeMatchesRow.pbDiscard : Laws.EncodeMatchesRow.Statement .pbDiscard := by
  unfold Laws.EncodeMatchesRow.Statement; decide

theorem Laws.EncodeMatchesRow.scRender (ly : Byte) (tall : Bool) : Laws.EncodeMatchesRow.Statement (.scRender ly tall) := by
  simp (disch := decide) only [Laws.EncodeMatchesRow.Statement, encode, argBits, Instr.opcode, opcodeMask,
    BitVec.and_or_distrib_right, placeField_and_mask, placeBit_and_mask, BitVec.or_zero]
  rfl

theorem Laws.EncodeMatchesRow.fbWrite (x : Byte) (y : Byte) (ch : BitVec 2) (value : Byte) : Laws.EncodeMatchesRow.Statement (.fbWrite x y ch value) := by
  simp (disch := decide) only [Laws.EncodeMatchesRow.Statement, encode, argBits, Instr.opcode, opcodeMask,
    BitVec.and_or_distrib_right, placeField_and_mask, BitVec.or_zero]
  rfl

theorem Laws.EncodeMatchesRow.fbRead (x : Byte) (y : Byte) (ch : BitVec 2) : Laws.EncodeMatchesRow.Statement (.fbRead x y ch) := by
  simp (disch := decide) only [Laws.EncodeMatchesRow.Statement, encode, argBits, Instr.opcode, opcodeMask,
    BitVec.and_or_distrib_right, placeField_and_mask, BitVec.or_zero]
  rfl

end Sys2Proof
end

