-- ==== Sys2Proof/Tests/Slice0.lean ====
section
/-! SUPPORT. The model's own tests: ill-formed terms refused, words of R103 decoded, vectors of spec/95, and for every obligation
with hypotheses a state and operands that meet them. Expected values are the spec's, or counted by hand from its rules. -/

open Sys2Proof Sys2Proof.Machine

set_option maxRecDepth 40000

namespace Sys2Proof.Tests

/-! ## A concrete state -/

/-- A block with every register known, at the default parameters. -/
def blank : State where
  params := Params.defaults
  mode := 0#2
  modeSet := true
  fault := 0#4
  mpal := Vector.ofFn fun _ => 0#8
  cpal := Vector.ofFn fun _ => 0#15
  pbOpen := false
  pbLy := 0#8
  pbLySet := true
  pb := List.replicate 160 ⟨false, 0#2, false⟩
  fb := []
  oam := []
  vram0 := []
  vram1 := []
  inbox := []
  res := 0#32
  freeCount := 0

/-- The state after one step on a command word, or the state itself if the step stops. -/
def after (s : State) (w : Nat) : State :=
  match step { s with inbox := [.command (BitVec.ofNat 32 w)] } with
  | .next t => t
  | .fault _ => s
  | .refused _ => s

/-- The state with a command word waiting. -/
def pending (s : State) (w : Word) : State := { s with inbox := [.command w] }

/-- A block open on scanline 20 with every entry live, colour index 2. -/
def filled : State :=
  { blank with pbOpen := true, pbLy := 20#8, pb := List.replicate 160 ⟨true, 2#2, false⟩ }

/-- The sprite, the tile and the palette of spec/95 S1, the Priority Buffer filled. -/
def scene : State :=
  { filled with
    oam := [(0, 36#8), (1, 18#8)], vram0 := [(0x8000, 0xFF#8)], mpal := (Vector.ofFn fun _ => 0#8).set 0 0x08#8 }

/-- The colour scene of spec/95 S7, under the override. -/
def overrideScene : State :=
  { scene with
    oam := [(0, 36#8), (1, 18#8), (3, 0x80#8)], mode := 1#2,
    cpal := (Vector.ofFn fun _ => 0#15).set 33 0x1234#15 }

/-- Frame-buffer channel 0 of row 20 at columns 9 and 10, 17 and 18. -/
def edges (s : State) : List (Option Byte) := [9#8, 10#8, 17#8, 18#8].map fun x => s.fbAt x 20#8 0#2

/-! ## Well-formedness (R106) -/

theorem test_resolve_sel_two_is_ill_formed : (Instr.palResolve false true 2#3 0#2).wellFormed = false := by decide
theorem test_resolve_background_is_ill_formed : (Instr.palResolve false false 0#3 0#2).wellFormed = false := by decide
theorem test_rowsel_row_eight_is_ill_formed : (Instr.tileRowsel 8#4 false false).wellFormed = false := by decide
theorem test_fetch_odd_is_ill_formed : (Instr.tileFetch 0#8 false 3#5).wellFormed = false := by decide
theorem test_legal_neighbours_are_well_formed :
    (Instr.palResolve false true 1#3 0#2).wellFormed = true ∧ (Instr.palResolve true false 7#3 3#2).wellFormed = true ∧
    (Instr.tileRowsel 8#4 true false).wellFormed = true ∧ (Instr.tileRowsel 7#4 false true).wellFormed = true ∧
    (Instr.tileFetch 255#8 true 30#5).wellFormed = true := by decide

/-! ## Decoding: words written out from R103's fields -/

theorem test_decode_modeWr : decodeTableWord 32 0x04000001 = some (.modeWr true false) := by decide
theorem test_decode_mpalWr : decodeTableWord 32 0x0C00011B = some (.mpalWr 1#1 0x1B#8) := by decide
theorem test_decode_cpalWr : decodeTableWord 32 0x14177C1F = some (.cpalWr true 3#3 2#2 0x7C1F#15) := by decide
theorem test_decode_statusRd : decodeTableWord 32 0x1C000000 = some .statusRd := by decide
theorem test_decode_palResolve : decodeTableWord 32 0x20000025 = some (.palResolve false true 1#3 1#2) := by decide
theorem test_decode_palSplit : decodeTableWord 32 0x24001234 = some (.palSplit 0x1234#15) := by decide
theorem test_decode_tileRowsel : decodeTableWord 32 0x40000023 = some (.tileRowsel 3#4 false true) := by decide
theorem test_decode_tileFetch : decodeTableWord 32 0x44001102 = some (.tileFetch 2#8 true 8#5) := by decide
theorem test_decode_tilePixel : decodeTableWord 32 0x48080180 = some (.tilePixel 0x80#8 0x01#8 0#3 true) := by decide
theorem test_decode_pbBegin : decodeTableWord 32 0x60000014 = some (.pbBegin 20#8) := by decide
theorem test_decode_pbWrite : decodeTableWord 32 0x6400050A = some (.pbWrite 10#8 1#2 true) := by decide
theorem test_decode_pbRead : decodeTableWord 32 0x6800150A = some (.pbRead 10#8 21#8) := by decide
theorem test_decode_pbDiscard : decodeTableWord 32 0x6C000000 = some .pbDiscard := by decide
theorem test_decode_scRender : decodeTableWord 32 0x80000115 = some (.scRender 21#8 true) := by decide
theorem test_decode_fbWrite : decodeTableWord 32 0xA009140A = some (.fbWrite 10#8 20#8 1#2 0x02#8) := by decide
theorem test_decode_fbRead : decodeTableWord 32 0xA401140A = some (.fbRead 10#8 20#8 1#2) := by decide
theorem test_decode_refuses_reserved : decode 0x1C000001#32 = .error .reservedBit := by decide
theorem test_decode_refuses_unassigned : decode 0x00000000#32 = .error .unassignedOp := by decide

/-! ## Single steps (vectors of spec/95) -/

theorem test_mode_write : (after { blank with mode := 2#2 } 0x04000001).mode = 1#2 := by decide
theorem test_mpal_write : (after blank 0x0C00011B).mpalAt 1#1 = 0x1B#8 := by decide
theorem test_cpal_write : (after blank 0x14177C1F).cpalAt true 3#3 2#2 = 0x7C1F#15 := by decide
theorem test_status : (after { blank with mode := 1#2, pbOpen := true, pbLy := 20#8 } 0x1C000000).res = 0x00001405#32 := by
  decide
theorem test_status_while_halted : (after { blank with fault := 2#4 } 0x1C000000).res = 0x00020000#32 := by decide
theorem test_resolve_shade : (after scene 0x20000021).res = 2#32 := by decide
theorem test_resolve_illegal : (after blank 0x20000028).res = 0x80000001#32 := by decide
theorem test_split : (after blank 0x24001234).res = 0x00041114#32 := by decide
theorem test_rowsel_tall_flip : (after blank 0x40000037).res = 0x00000010#32 := by decide
theorem test_fetch_bytes :
    (after { blank with vram0 := [(0x8028, 0x3C#8), (0x8029, 0x7E#8)] } 0x44003001).res = 0x00007E3C#32 := by decide
theorem test_fetch_bad_bank : (after blank 0x44000100).fault = 2#4 := by decide
theorem test_pixel : (after blank 0x48080180).res = 2#32 := by decide
theorem test_pb_begin_invalidates : ((after filled 0x60000015).pb.all fun e => !e.valid) = true := by decide
theorem test_pb_write_dropped_when_closed : (after blank 0x6400020A).pb = blank.pb := by decide
theorem test_pb_read : (after { filled with pb := filled.pb.set 11 ⟨true, 0#2, true⟩ } 0x6800140B).res = 4#32 := by decide
theorem test_pb_read_other_scanline_counts : (after filled 0x6800150A).freeCount = 1 := by decide
theorem test_pb_discard : (after filled 0x6C000000).pbOpen = false := by decide
theorem test_fb_write : (after blank 0xA009140A).fbAt 10#8 20#8 1#2 = some 2#8 := by decide
theorem test_fb_write_rejected : (after blank 0xA00400A0).fb = [] := by decide
theorem test_fb_read : (after (after blank 0xA009140A) 0xA401140A).res = 2#32 := by decide
theorem test_halted_word : (after { blank with fault := 2#4 } 0x04000003).res = 0x80000002#32 := by decide

theorem test_render_s1 : edges (after scene 0x80000014) = [none, some 2#8, some 2#8, none] := by decide

theorem test_render_s7 : edges (after overrideScene 0x80000014) = [none, some 20#8, some 20#8, none] := by decide

/-- The host's word runs as the first command after reset, whatever stood there. -/
theorem test_first_word_after_reset : (match step (State.reset.withFetchWord 32 0x60000014) with
    | .next t => t.pbOpen && t.pbLy == 20#8
    | .fault _ => false
    | .refused _ => false) = true := by decide

theorem test_memory_keeps_form :
    memWrite 5 0#8 (memWrite 3 7#8 (memWrite 5 9#8 (memWrite 4 1#8 []))) = [(3, 7#8), (4, 1#8)] := by decide

/-! ## The text form (R109, R110) -/

theorem test_disassemble : disassemble (.fbRead 10#8 20#8 1#2) =
    ['F', 'B', '.', 'R', 'E', 'A', 'D', ' ', 'x', '=', '1', '0', ',', ' ', 'y', '=', '2', '0', ',', ' ', 'c', 'h', '=', '1'] := by
  decide

theorem test_expand_pixel : (expandFbPixel 10#8 20#8 1#8 2#8 3#8).map encode = [0xA004140A#32, 0xA009140A#32, 0xA00E140A#32] := by
  decide

theorem test_assemble :
    (assembleLine 160 "SC.RENDER ly=20, tall=0".toList).map (·.map encode) = some [0x80000014#32] := by decide

/-! ## The agents' rows (R275) and the contract (R292 to R299) -/

theorem test_only_the_memory_subsystem_writes_oam : ∀ a ∈ [Agent.scanlineDriver, .backgroundRenderer, .spriteCompositor,
      .displayLayer, .resetLine], a.mayDeliver (.oamWrite 0 0#8) = false := by decide

/-- The contract in the background pass of scanline 20, with all that `scene` shows there written: its one visible sprite selects
row 0 of tile 0. -/
def passing : Contract where
  phase := .background 20#8
  modeWritten := true
  mpalWritten := [0#1, 1#1]
  cpalWritten := []
  oamWritten := List.finRange 160
  vramWritten := [(false, 0x8000#16), (false, 0x8001#16)]

/-- In a background pass the memory subsystem writes nothing, not even VRAM no sprite can select; between scanlines it may. -/
theorem test_memory_write_in_background_pass_breaks_the_contract :
    (passing.input .memorySubsystem blank (.vramWrite false 0xF000#16 1#8)) = none ∧
    (Contract.input Contract.start .memorySubsystem blank (.vramWrite false 0xF000#16 1#8)) =
      some { Contract.start with vramWritten := [(false, 0xF000#16)] } := by decide

/-- PB.WRITE is the renderer's alone, and only in its pass. -/
theorem test_pb_write_outside_its_pass_breaks_the_contract :
    (passing.input .scanlineDriver filled (.command 0x6400020A#32)) = none ∧
    (Contract.input { passing with phase := .composed 20#8 } .backgroundRenderer filled (.command 0x6400020A#32)) = none := by decide

/-- SC.RENDER over memory nobody filled breaks the contract (R292 (3)): an OAM byte, or one byte of the tile row, is missing. -/
theorem test_render_of_unfilled_memory_breaks_the_contract :
    passing.command .scanlineDriver scene (.scRender 20#8 false) = some { passing with phase := .composed 20#8 } ∧
    Contract.command { passing with oamWritten := (List.finRange 160).tail } .scanlineDriver scene (.scRender 20#8 false) = none ∧
    Contract.command { passing with vramWritten := [(false, 0x8000#16)] } .scanlineDriver scene (.scRender 20#8 false) = none := by
  decide

/-- The renderer's FB.WRITE to row 20 belongs in the background pass of row 20 (R296, R297); the display layer's is free. -/
theorem test_row_write_outside_its_pass_breaks_the_contract :
    passing.command .backgroundRenderer scene (.fbWrite 10#8 20#8 1#2 2#8) = some passing ∧
    (∀ p ∈ [Phase.between, .composed 20#8, .background 21#8],
      Contract.command { passing with phase := p } .backgroundRenderer scene (.fbWrite 10#8 20#8 1#2 2#8) = none) ∧
    Contract.command { passing with phase := .between } .displayLayer scene (.fbWrite 10#8 20#8 1#2 2#8) =
      some { passing with phase := .between } := by decide

/-- No agent outside the block may issue PB.READ; the Sprite Compositor calls it. -/
theorem test_pb_read_is_the_compositors : Agent.displayLayer.mayDeliver (.command 0x6800140A#32) = false ∧
    Agent.spriteCompositor.mayCall (.pbRead 10#8 20#8) = true := by decide

/-- A short stream under the contract ends in the phase its last PB.BEGIN opens. -/
theorem test_contract_run : (Contract.run Contract.start blank [(.scanlineDriver, .command 0x04000002#32),
      (.memorySubsystem, .oamWrite 0 36#8), (.scanlineDriver, .command 0x60000014#32),
      (.backgroundRenderer, .command 0x6400020A#32)]).map (fun r => (r.1.phase, r.1.modeWritten, r.2.pbLy)) =
    some (.background 20#8, true, 20#8) := by decide

/-! ## Witnesses: the hypotheses of each obligation can be met together -/

theorem witness_DecodedWordIsItsEncoding : decode 0xA3FFFFFF#32 = .ok (.fbWrite 255#8 255#8 3#2 255#8) := by decide

theorem witness_CommandExactlyWhenMaskMatches :
    (Opcode.fbRead, 0xFFFC0000#32, 0xA4000000#32) ∈ Spec.rows ∧ 0xA403FFFF#32 &&& 0xFFFC0000#32 = 0xA4000000#32 ∧
    0xA4040000#32 &&& 0xFFFC0000#32 ≠ 0xA4000000#32 := by decide

/-- At the lowest and the highest unassigned `op`. -/
theorem witness_UnassignedOpcodeFaults :
    blank.params.wf = true ∧ (pending blank 0x00000000#32).inbox = .command 0x00000000#32 :: [] ∧
    (pending blank 0xFFFFFFFF#32).inbox = .command 0xFFFFFFFF#32 :: [] ∧ blank.fault = 0#4 ∧
    0 / 2 ^ 26 ∉ Spec.assignedOps ∧ 0xFFFFFFFF / 2 ^ 26 ∉ Spec.assignedOps :=
  ⟨by decide, rfl, rfl, by decide, by decide, by decide⟩

theorem witness_ReservedBitFaults :
    let s := pending blank 0x1C000001#32
    let row := (Opcode.statusRd, 0xFFFFFFFF#32, 0x1C000000#32)
    s.params.wf = true ∧ s.inbox = .command 0x1C000001#32 :: [] ∧ s.fault = 0#4 ∧ row ∈ Spec.rows ∧
    (0x1C000001#32).toNat / 2 ^ 26 = row.2.2.toNat / 2 ^ 26 ∧ 0x1C000001#32 &&& row.2.1 ≠ row.2.2 := by decide

/-- Both clauses, at the operand values where they meet. -/
theorem witness_ReservedOperandsAreWhatFaultsIllegal : blank.fault = 0#4 ∧
    (Instr.palResolve false true 2#3 0#2).wellFormed = false ∧ (Instr.palResolve false true 1#3 0#2).wellFormed = true ∧
    (Instr.tileRowsel 8#4 false true).wellFormed = false ∧ (Instr.tileRowsel 7#4 false true).wellFormed = true ∧
    (Instr.tileFetch 0#8 false 31#5).wellFormed = false ∧ (Instr.tileFetch 0#8 false 30#5).wellFormed = true := by decide

/-- Both cases of the last hypothesis. -/
theorem witness_StepRunsDecodedCommand :
    ((pending blank 0x6C000000#32).params.wf = true ∧
      (pending blank 0x6C000000#32).inbox = .command 0x6C000000#32 :: [] ∧
      decode 0x6C000000#32 = .ok .pbDiscard ∧ (pending blank 0x6C000000#32).fault = 0#4) ∧
    ((pending { blank with fault := 1#4 } 0x1C000000#32).params.wf = true ∧ decode 0x1C000000#32 = .ok .statusRd) := by
  decide

/-- A halted block with the STATUS.RD word, a halted block with another, and a running block with a command and with no
command. -/
theorem witness_HaltBlocksAllButStatusRead :
    blank.params.wf = true ∧ (pending { blank with fault := 1#4 } 0x1C000000#32).inbox = .command 0x1C000000#32 :: [] ∧
    (pending { blank with fault := 1#4 } 0x1C000001#32).inbox = .command 0x1C000001#32 :: [] ∧
    ({ blank with fault := 1#4 } : State).fault ≠ 0#4 ∧ blank.fault = 0#4 ∧ 0x1C000001#32 ≠ 0x1C000000#32 ∧
    decode 0x6C000000#32 = .ok .pbDiscard ∧ decode 0x1C000001#32 = .error .reservedBit :=
  ⟨by decide, rfl, rfl, by decide, by decide, by decide, by decide, by decide⟩

/-- A faulting step, and a second state with the same MODE.CGB and another BGPRI. -/
theorem witness_FaultsArePrecise :
    (∃ t, step (pending blank 0x44000100#32) = .next t ∧ t.fault ≠ blank.fault) ∧
    (∃ t, step (pending { blank with mode := 2#2 } 0x44000100#32) = .next t) ∧
    ({ blank with mode := 2#2 } : State).mode.getLsbD 0 = blank.mode.getLsbD 0 :=
  ⟨⟨_, rfl, by decide⟩, ⟨_, rfl⟩, by decide⟩

/-- A halted block that meets a command, and one that meets reset. -/
theorem witness_FirstCauseIsKeptUntilReset :
    (∃ t, step (pending { blank with fault := 2#4 } 0x00000000#32) = .next t) ∧
    (∃ t, step { blank with fault := 2#4, inbox := [.reset] } = .next t) ∧
    (2#4 : BitVec 4) ≠ 0#4 ∧ (pending blank 0x00000000#32).inbox.head? ≠ some .reset := ⟨⟨_, rfl⟩, ⟨_, rfl⟩, by decide, by decide⟩

/-- A step that faults, and one that returns data. -/
theorem witness_ResultWordTellsFaultOrData :
    (∃ t, step (pending blank 0x00000000#32) = .next t ∧ t.fault ≠ 0#4) ∧
    (∃ t, step (pending blank 0x24007FFF#32) = .next t ∧ t.fault = 0#4) := ⟨⟨_, rfl, by decide⟩, ⟨_, rfl, by decide⟩⟩

theorem witness_ResetInputLeavesBlockIdle :
    let s := { blank with fault := 2#4, inbox := [.reset] }
    s.params.wf = true ∧ s.inbox = .reset :: [] := by decide

/-- A reset in the scene, and a second state that differs from it in every register of the block and in the frame buffer. -/
theorem witness_ResetInputKeepsMemoriesAndForgetsRegisters :
    let s := { scene with inbox := [.reset] }
    let s' := { s with
      mode := 3#2, modeSet := false, fault := 2#4, mpal := blank.mpal, cpal := overrideScene.cpal, pbOpen := false,
      pbLy := 7#8, pbLySet := false, pb := blank.pb, fb := [(0, 1#8)] }
    s.params.wf = true ∧ s.inbox = .reset :: [] ∧ s'.params = s.params ∧ s'.oam = s.oam ∧ s'.vram0 = s.vram0 ∧
    s'.vram1 = s.vram1 ∧ s'.res = s.res ∧ s'.freeCount = s.freeCount ∧ s'.inbox = s.inbox ∧ s' ≠ s :=
  ⟨by decide, rfl, rfl, rfl, rfl, rfl, rfl, rfl, rfl, by decide⟩

/-- The first and the last byte of OAM. -/
theorem witness_OamWriteIsSeenAndNothingElse : ∀ off ∈ [(0 : Fin 160), 159],
    let s := { blank with inbox := [.oamWrite off 7#8] }
    s.params.wf = true ∧ s.oam.rising ∧ s.inbox = .oamWrite off 7#8 :: [] := by decide

/-- Both banks, and the first and the last address. -/
theorem witness_VramWriteIsSeenAndNothingElse :
    blank.params.wf = true ∧ blank.vram0.rising ∧ blank.vram1.rising ∧
    ({ blank with inbox := [.vramWrite false 0x0000#16 7#8] } : State).inbox = .vramWrite false 0x0000#16 7#8 :: [] ∧
    ({ blank with inbox := [.vramWrite true 0xFFFF#16 7#8] } : State).inbox = .vramWrite true 0xFFFF#16 7#8 :: [] :=
  ⟨by decide, by decide, by decide, rfl, rfl⟩

/-- Legal parameters at their bounds, and each bound passed. -/
theorem witness_StepWithoutInputOrMachine :
    (0xEFF0 + 4111 ≤ 0xFFFF ∧ ({ blank with params := ⟨0xEFF0#16, 256, 256, Params.defaults.expand5⟩ } : State).inbox = []) ∧
    ¬ (0xEFF1 + 4111 ≤ 0xFFFF) ∧ (Params.mk 0xEFF1#16 256 256 Params.defaults.expand5).wf = false ∧
    (Params.mk 0xEFF0#16 257 256 Params.defaults.expand5).wf = false ∧
    (Params.mk 0xEFF0#16 256 257 Params.defaults.expand5).wf = false ∧
    (Params.mk 0xEFF0#16 256 256 Params.defaults.expand5).wf = true := by decide

theorem witness_StepKeepsInvariant : blank.Inv ∧ ∃ t, step (pending blank 0x60000014#32) = .next t := ⟨by decide, _, rfl⟩

/-- Each element is written by one of the operations listed for it. -/
theorem witness_OnlyTheListedOperationsWriteEachElement :
    (after blank 0x04000001).mode ≠ blank.mode ∧ (after blank 0x0C000008).mpal ≠ blank.mpal ∧
    (after blank 0x14177C1F).cpal ≠ blank.cpal ∧ (after blank 0x60000014).pbOpen ≠ blank.pbOpen ∧
    (after blank 0x60000014).pbLy ≠ blank.pbLy ∧ (after filled 0x6C000000).pb ≠ filled.pb ∧
    (after blank 0xA009140A).fb ≠ blank.fb ∧ (after blank 0x44000100).fault ≠ blank.fault := by decide

/-- A query that leaves FAULT, and one that faults. -/
theorem witness_QueriesChangeNoState :
    (∃ t, exec (.pbRead 10#8 20#8) blank = .next t ∧
      (Instr.pbRead 10#8 20#8).opcode ∈
        [Opcode.statusRd, .palResolve, .palSplit, .tileRowsel, .tileFetch, .tilePixel, .pbRead, .fbRead]) ∧
    (∃ t, exec (.tileFetch 0#8 true 0#5) blank = .next t ∧ t.fault ≠ blank.fault ∧
      (Instr.tileFetch 0#8 true 0#5).opcode ∈
        [Opcode.statusRd, .palResolve, .palSplit, .tileRowsel, .tileFetch, .tilePixel, .pbRead, .fbRead]) :=
  ⟨⟨_, rfl, by decide⟩, ⟨_, rfl, by decide, by decide⟩⟩

/-- Each agent with an input it may deliver; each of these inputs takes a step. -/
theorem witness_AgentsWriteOnlyTheirElements : ∀ p ∈ [(Agent.scanlineDriver, Input.command 0x60000014#32),
      (.backgroundRenderer, .command 0x6400020A#32), (.displayLayer, .command 0xA401140A#32),
      (.memorySubsystem, .oamWrite 159 7#8), (.resetLine, .reset)],
    p.1.mayDeliver p.2 = true ∧ ∃ t, step { filled with inbox := [p.2] } = .next t := by
  simp only [List.forall_mem_cons, List.not_mem_nil, false_implies, implies_true, and_true]
  exact ⟨⟨by decide, _, rfl⟩, ⟨by decide, _, rfl⟩, ⟨by decide, _, rfl⟩, ⟨by decide, _, rfl⟩, ⟨by decide, _, rfl⟩⟩

theorem witness_CompositorCallsWriteOnlyTheFrame : Agent.spriteCompositor.mayCall (.fbWrite 10#8 20#8 1#2 2#8) = true ∧
    ∃ t, exec (.fbWrite 10#8 20#8 1#2 2#8) blank = .next t := ⟨by decide, _, rfl⟩

theorem witness_BackgroundPassFreezesWhatSpritesRead :
    passing.phase.inBackground = true ∧
    passing.input .backgroundRenderer filled (.command 0x6400020A#32) = some passing ∧
    ∃ t, step (pending filled 0x6400020A#32) = .next t := ⟨by decide, by decide, _, rfl⟩

theorem witness_ContractRenderPaintsThePicture :
    (pending scene 0x80000014#32).params.wf = true ∧ scene.fault = 0#4 ∧ decode 0x80000014#32 = .ok (.scRender 20#8 false) ∧
    passing.input .scanlineDriver scene (.command 0x80000014#32) = some { passing with phase := .composed 20#8 } := by decide

/-- A second memory that differs from the scene's in a byte nobody has written, and agrees in all that are. -/
theorem witness_ContractRenderReadsOnlyWrittenMemory :
    (pending scene 0x80000014#32).params.wf = true ∧ scene.fault = 0#4 ∧ decode 0x80000014#32 = .ok (.scRender 20#8 false) ∧
    passing.input .scanlineDriver scene (.command 0x80000014#32) = some { passing with phase := .composed 20#8 } ∧
    (∀ off ∈ passing.oamWritten, memRead scene.oam off.val = scene.oamByte off.val) ∧
    (∀ p ∈ passing.vramWritten,
      memRead (if p.1 then [(5, 7#8)] else [(0x8000, 0xFF#8), (0x8002, 1#8)]) p.2.toNat = scene.vramByte p.1 p.2) :=
  ⟨by decide, by decide, by decide, by decide, fun _ _ => rfl, by
    simp only [passing, List.forall_mem_cons]; exact ⟨rfl, rfl, by simp⟩⟩

theorem witness_MonochromePaletteWriteStoresByte : (1#1 : BitVec 1) ≠ 0#1 := by decide

theorem witness_ColourPaletteWriteStoresEntry : (false, 7#3, 3#2) ≠ (true, 7#3, 3#2) := by decide

theorem witness_StatusReadReportsFlags : blank.modeSet = true ∧ blank.pbLySet = true := by decide

theorem witness_MonochromeResolveGivesShade : (0#3).toNat < 2 ∧ (1#3).toNat < 2 := by decide

/-- Each of the two illegal forms alone. -/
theorem witness_ResolveWithoutPaletteFaults :
    blank.fault = 0#4 ∧ (2 ≤ (2#3).toNat ∨ true = false) ∧ (2 ≤ (1#3).toNat ∨ false = false) := by decide

theorem witness_SplitGivesThreeChannels : blank.params.expand5 = Params.defaults.expand5 := by decide

/-- Both clauses at the border, in either height: a short sprite has rows 0 to 7, a tall one has every row. -/
theorem witness_RowSelectionMirrorsAndDoubles : (7#4).toNat < Spec.height false ∧ Spec.height false ≤ (8#4).toNat ∧
    (15#4).toNat < Spec.height true ∧ blank.fault = 0#4 := by decide

/-- The last odd and the last even offset, in monochrome and in colour mode. -/
theorem witness_FetchReadsTheRowsTwoBytes :
    blank.fault = 0#4 ∧ (31#5).toNat % 2 = 1 ∧ (30#5).toNat % 2 = 0 ∧ blank.mode.getLsbD 0 = false ∧
    (1#2).getLsbD 0 = true ∧ blank.params.wf = true := by decide

theorem witness_FlipUndoesMirror :
    ((0#4).toNat < Spec.height true ∧ (15#4).toNat = Spec.height true - 1 - (0#4).toNat) ∧
    ((7#4).toNat < Spec.height false ∧ (0#4).toNat = Spec.height false - 1 - (7#4).toNat) ∧
    (7#3).toNat = 7 - (0#3).toNat := by decide

theorem witness_BeginOpensAndInvalidates : filled.pb[159]? = some ⟨true, 2#2, false⟩ := by decide

/-- An entry to invalidate, and a closed buffer without a valid entry. -/
theorem witness_DiscardClosesAndInvalidates : filled.pb[0]? = some ⟨true, 2#2, false⟩ ∧ blank.pbOpen = false ∧
    ∀ e ∈ blank.pb, e.valid = false := by decide

/-- The last column of the frame, and the two reasons for a rejection, each alone. -/
theorem witness_PbWriteStoresEntryOrNothing :
    (filled.pbOpen = true ∧ (159#8).toNat < filled.params.screenW ∧ filled.pb.length = filled.params.screenW) ∧
    (blank.pbOpen = false ∧ (159#8).toNat < blank.params.screenW) ∧
    (filled.pbOpen = true ∧ filled.params.screenW ≤ (160#8).toNat) := by decide

theorem witness_PbReadReturnsWhatPbWriteStored : filled.pbOpen = true ∧ (159#8).toNat < filled.params.screenW ∧
    filled.pb.length = filled.params.screenW ∧ (160#8 : Byte) ≠ 159#8 := by decide

theorem witness_PbFillMakesTheScanlineReady : blank.params.wf = true ∧ blank.pb.length = blank.params.screenW := by decide

/-- A live entry in the last column, and the four ways an entry can be missing. -/
theorem witness_PbReadReturnsLiveEntryOrAnyBits :
    (filled.pbOpen = true ∧ 20#8 = filled.pbLy ∧ (159#8).toNat < filled.params.screenW ∧
      filled.pb[(159#8).toNat]? = some ⟨true, 2#2, false⟩) ∧
    blank.pbOpen = false ∧ 21#8 ≠ filled.pbLy ∧ filled.params.screenW ≤ (160#8).toNat ∧
    ∀ e, (after filled 0x60000014).pb[(10#8).toNat]? = some e → e.valid = false :=
  ⟨by decide, by decide, by decide, by decide, by rintro e h; cases h; rfl⟩

/-- The last channel of the frame, and one past each bound. -/
theorem witness_FbWriteStoresOneChannelOrNothing : Spec.onFrame blank 159#8 143#8 2#2 ∧
    ¬ Spec.onFrame blank 160#8 143#8 2#2 ∧ ¬ Spec.onFrame blank 159#8 144#8 2#2 ∧ ¬ Spec.onFrame blank 159#8 143#8 3#2 := by
  decide

/-- A written channel, an unwritten one, and one off the frame. -/
theorem witness_FbReadReturnsWrittenChannelOrAnyBits :
    (Spec.onFrame blank 10#8 20#8 1#2 ∧ (after blank 0xA009140A).fbAt 10#8 20#8 1#2 = some 2#8) ∧
    blank.fbAt 10#8 20#8 1#2 = none ∧ ¬ Spec.onFrame blank 160#8 20#8 1#2 := by decide

/-- Another row, and a channel off the frame. -/
theorem witness_RenderWritesOnlyItsRowOfTheFrame : (21#8 : Byte) ≠ 20#8 ∧ ¬ Spec.onFrame scene 160#8 20#8 0#2 := by decide

/-- A column under the sprite with a live entry, one under the override, and one no sprite reaches in a closed buffer. -/
theorem witness_RenderPaintsLowestIndexedShownSprite :
    (Spec.onFrame scene 10#8 20#8 0#2 ∧ Spec.entryReady scene 20#8 10#8 ∧ Spec.touched scene 20#8 false 10#8) ∧
    (Spec.onFrame overrideScene 17#8 20#8 2#2 ∧ Spec.entryReady overrideScene 20#8 17#8) ∧
    (Spec.onFrame blank 0#8 0#8 0#2 ∧ ¬ Spec.touched blank 0#8 true 0#8) :=
  ⟨⟨by decide, .inr ⟨rfl, rfl, ⟨true, 2#2, false⟩, by decide, rfl⟩, by decide⟩, ⟨by decide, .inl (by decide)⟩, ⟨by decide, by decide⟩⟩

theorem witness_RenderOffFrameStoresNothing : scene.params.screenH ≤ (144#8).toNat := by decide

/-- No sprite of an all-zero OAM is visible on the last frame scanline (R184). -/
theorem witness_InvisibleSpritesContributeNothing : ∀ i, i < 40 → ¬ Spec.visibleOn blank 143#8 true i := by decide

/-- A visible sprite over empty VRAM. -/
theorem witness_TransparentTilesDrawNothing :
    let s := { scene with vram0 := [] }
    s.params.wf = true ∧ Spec.visibleOn s 20#8 false 0 ∧
    ∀ a, s.params.tileDataBase.toNat ≤ a → a ≤ s.params.tileDataBase.toNat + 4095 →
      memRead s.vram0 a = 0#8 ∧ memRead s.vram1 a = 0#8 :=
  ⟨by decide, by decide, fun _ _ _ => ⟨rfl, rfl⟩⟩

/-- The scene with tile 1 in place of tile 0. -/
theorem witness_TallTileParityIsIgnored :
    let oam' : Memory := [(0, 36#8), (1, 18#8), (2, 1#8)]
    ∀ i, i < 40 → memRead oam' (4 * i) = memRead scene.oam (4 * i) ∧
      memRead oam' (4 * i + 1) = memRead scene.oam (4 * i + 1) ∧ memRead oam' (4 * i + 3) = memRead scene.oam (4 * i + 3) ∧
      (memRead oam' (4 * i + 2)).toNat / 2 = (memRead scene.oam (4 * i + 2)).toNat / 2 := by decide

theorem witness_OverrideDoesNotReadPriorityBuffer :
    overrideScene.mode.getLsbD 0 = true ∧ overrideScene.mode.getLsbD 1 = false := by decide

theorem witness_MonochromeIgnoresPriorityFlags :
    scene.spriteReady 20#8 ∧ scene.mode.getLsbD 0 = false ∧ (2#2).getLsbD 0 = false := by decide

theorem witness_MonochromeNeverReadsBankOne : scene.mode.getLsbD 0 = false := by decide

theorem witness_MonochromePixelsHaveEqualChannels : scene.mode.getLsbD 0 = false := by decide

theorem witness_RenderingTwiceIsRenderingOnce : scene.spriteReady 20#8 ∧ overrideScene.spriteReady 20#8 := by decide

theorem witness_ScanlinesRenderInAnyOrder : (20#8 : Byte) ≠ 21#8 ∧ overrideScene.mode.getLsbD 0 = true ∧
    overrideScene.mode.getLsbD 1 = false := by decide

end Sys2Proof.Tests
end

section
/-! PROOFS of the family 10_state.md: what reset leaves (R35), and which operation writes which element of state (R34). -/

namespace Sys2Proof.Machine

/-! ## Reset -/

/-- What R35 asks of reset: not halted, the Priority Buffer closed, one entry for each column, none live. -/
structure State.Idle (s : State) : Prop where
  fault : s.fault = 0#4
  pbOpen : s.pbOpen = false
  pb_length : s.pb.length = s.params.screenW
  pb_invalid : ∀ e ∈ s.pb, e.valid = false

theorem afterReset_idle (p : Params) (n : Nat) : (State.afterReset p n).Idle where
  fault := rfl
  pbOpen := rfl
  pb_length := by simp [State.afterReset]
  pb_invalid := by simp [State.afterReset]

/-- Reset keeps only the memories and the ports, which `Idle` does not speak of. -/
theorem resetBlock_idle (s : State) : (resetBlock s).Idle :=
  let h := afterReset_idle s.params s.freeCount
  ⟨h.fault, h.pbOpen, h.pb_length, h.pb_invalid⟩

/-- A step that meets the reset input resets the block (R290). -/
theorem step_reset {s : State} {rest : List Input} (hw : s.params.wf = true) (hi : s.inbox = .reset :: rest) :
    step s = .next (resetBlock { s with inbox := rest }) := by
  simp [step, hw, takeNextInput, hi, takeInput]

/-- With legal parameters the block meets the invariant right after reset: idle, and every byte list empty. -/
theorem afterReset_inv {p : Params} (hp : p.wf = true) (n : Nat) : (State.afterReset p n).Inv := by
  obtain ⟨hfault, hopen, hlength, hinvalid⟩ := afterReset_idle p n
  have hempty (size : Nat) : Memory.wf size [] := ⟨.nil, by simp⟩
  refine ⟨hp, by simp [hfault], hlength, fun _ => hinvalid, by simp [hopen], .nil, ?_, hempty _, hempty _, hempty _⟩
  simp [State.afterReset]

/-- Settles O13: the step is the reset of the block, which leaves it idle. -/
theorem resetInputLeavesBlockIdle : Obligations.ResetInputLeavesBlockIdle := by
  intro s rest hw hi
  obtain ⟨hfault, hopen, hlength, hinvalid⟩ := resetBlock_idle { s with inbox := rest }
  exact ⟨_, step_reset hw hi, hfault, hopen, hlength, hinvalid⟩

/-- Settles O18: the state right after reset is idle. -/
theorem resetStateIsIdle : Obligations.ResetStateIsIdle := by
  obtain ⟨hfault, hopen, hlength, hinvalid⟩ := afterReset_idle Params.defaults 0
  exact ⟨hfault, hopen, hlength, hinvalid⟩

/-- Settles O20: the default parameters are legal. -/
theorem resetMeetsInvariant : Obligations.ResetMeetsInvariant :=
  afterReset_inv (p := Params.defaults) (by decide) 0

/-! ## Who writes what -/

/-- `t` differs from `s` at most in the result word and in the count of free values drawn (log 5): what a query that does not
fault may do (R112). -/
def SameButAnswer (s t : State) : Prop := t = { s with res := t.res, freeCount := t.freeCount }

theorem SameButAnswer.setRes (s : State) (v : Word) : SameButAnswer s (s.setRes v) := rfl

/-- A result written after at most one free value was drawn. -/
theorem SameButAnswer.setRes_of_draw {s t : State} (h : t = s ∨ t = s.drawFree) (v : Word) :
    SameButAnswer s (t.setRes v) := by
  rcases h with rfl | rfl <;> rfl

/-- The operations that write no element of state unless they fault (R112). -/
def queryOpcodes : List Opcode :=
  [.statusRd, .palResolve, .palSplit, .tileRowsel, .tileFetch, .tilePixel, .pbRead, .fbRead]

/-- What an instruction can do to the state, one case for each operation that writes, one for the queries' answers and two for
their faults (R112, R261). -/
inductive ExecCase (s : State) : Instr → State → Prop
  | modeWr (cgb bgpri : Bool) : ExecCase s (.modeWr cgb bgpri) ((s.writeMode cgb bgpri).setRes 0#32)
  | mpalWr (sel : BitVec 1) (v : Byte) : ExecCase s (.mpalWr sel v) ((s.writeMpal sel v).setRes 0#32)
  | cpalWr (l : Bool) (p : BitVec 3) (k : BitVec 2) (v : BitVec 15) :
    ExecCase s (.cpalWr l p k v) ((s.writeCpal l p k v).setRes 0#32)
  | pbBegin (ly : Byte) : ExecCase s (.pbBegin ly) ((s.beginPb ly).setRes 0#32)
  | pbWrite (x : Byte) (ci : BitVec 2) (prio : Bool) : ExecCase s (.pbWrite x ci prio) ((s.writePb x ci prio).setRes 0#32)
  | pbDiscard : ExecCase s .pbDiscard (s.discardPb.setRes 0#32)
  | scRender (ly : Byte) (tall : Bool) : ExecCase s (.scRender ly tall) ((s.renderSprites ly tall).setRes 0#32)
  | fbWrite (x y : Byte) (ch : BitVec 2) (v : Byte) : ExecCase s (.fbWrite x y ch v) ((s.writeFb x y ch v).setRes 0#32)
  /-- A query answers. -/
  | answer {i : Instr} {t : State} (hi : i.opcode ∈ queryOpcodes) (ht : SameButAnswer s t) : ExecCase s i t
  /-- A reserved operand value (R106). -/
  | illegalOp {i : Instr} (hi : i.opcode ∈ [.palResolve, .tileRowsel, .tileFetch]) : ExecCase s i (raiseFault .illegalOp s)
  /-- Bank 1 in monochrome mode (R143). -/
  | badBank (tile : Byte) (off : BitVec 5) (hs : s.cgb = false) :
    ExecCase s (.tileFetch tile true off) (raiseFault .badBank s)

/-- STATUS.RD answers, with free bits for what is unwritten (R244). -/
theorem execCase_statusRd {s t : State} (h : exec .statusRd s = .next t) : ExecCase s .statusRd t := by
  injection h with h
  subst h
  refine .answer (by decide) (.setRes_of_draw ?_ _)
  split
  · exact .inl rfl
  · exact .inr rfl

/-- PAL.RESOLVE answers in colour mode, and in monochrome mode for the legal operands (R121 to R123). -/
theorem execCase_palResolve {s t : State} {mode l : Bool} {sel : BitVec 3} {ci : BitVec 2}
    (h : exec (.palResolve mode l sel ci) s = .next t) : ExecCase s (.palResolve mode l sel ci) t := by
  simp only [exec, execPalResolve] at h
  split at h
  · cases h; exact .answer (by simp [queryOpcodes, Instr.opcode]) (.setRes ..)
  · split at h <;> cases h
    · exact .illegalOp (by simp [Instr.opcode])
    · exact .answer (by simp [queryOpcodes, Instr.opcode]) (.setRes ..)

/-- TILE.ROWSEL answers for a row inside the sprite (R141). -/
theorem execCase_tileRowsel {s t : State} {row : BitVec 4} {tall yflip : Bool}
    (h : exec (.tileRowsel row tall yflip) s = .next t) : ExecCase s (.tileRowsel row tall yflip) t := by
  simp only [exec, execTileRowsel] at h
  split at h <;> cases h
  · exact .illegalOp (by simp [Instr.opcode])
  · exact .answer (by simp [queryOpcodes, Instr.opcode]) (.setRes ..)

/-- TILE.FETCH answers for an even offset and a bank that exists in the mode (R142 to R144). -/
theorem execCase_tileFetch {s t : State} {tile : Byte} {bank : Bool} {off : BitVec 5}
    (h : exec (.tileFetch tile bank off) s = .next t) : ExecCase s (.tileFetch tile bank off) t := by
  simp only [exec, execTileFetch] at h
  split at h
  · cases h; exact .illegalOp (by simp [Instr.opcode])
  · split at h <;> cases h
    · rename_i hbank
      obtain ⟨rfl, hs⟩ : bank = true ∧ s.cgb = false := by simpa using hbank
      exact .badBank tile off hs
    · exact .answer (by simp [queryOpcodes, Instr.opcode]) (.setRes ..)

/-- PB.READ is its query and the entry's bits as the result (R164). -/
theorem exec_pbRead (s : State) (x ly : Byte) : exec (.pbRead x ly) s =
    .next ((s.readPb x ly).2.setRes
      ((BitVec.ofBool (s.readPb x ly).1.2 ++ (s.readPb x ly).1.1 : BitVec 3).setWidth 32)) := rfl

/-- PB.READ answers, with free bits for a missing entry (R164, R165). -/
theorem execCase_pbRead {s t : State} {x ly : Byte} (h : exec (.pbRead x ly) s = .next t) : ExecCase s (.pbRead x ly) t := by
  rw [exec_pbRead] at h
  cases h
  exact .answer (by simp [queryOpcodes, Instr.opcode]) (.setRes_of_draw (readPb_state s x ly) _)

/-- All a read of the frame buffer does to the state (R223, R224). -/
theorem readFb_state (s : State) (x y : Byte) (ch : BitVec 2) :
    (s.readFb x y ch).2 = s ∨ (s.readFb x y ch).2 = s.drawFree := by
  unfold State.readFb
  split
  · exact .inl rfl
  · exact .inr rfl

/-- FB.READ is its read and the byte as the result (R223). -/
theorem exec_fbRead (s : State) (x y : Byte) (ch : BitVec 2) : exec (.fbRead x y ch) s =
    .next ((s.readFb x y ch).2.setRes ((s.readFb x y ch).1.setWidth 32)) := rfl

/-- FB.READ answers, with free bits for what is unwritten or off the frame (R223, R224). -/
theorem execCase_fbRead {s t : State} {x y : Byte} {ch : BitVec 2} (h : exec (.fbRead x y ch) s = .next t) :
    ExecCase s (.fbRead x y ch) t := by
  rw [exec_fbRead] at h
  cases h
  exact .answer (by simp [queryOpcodes, Instr.opcode]) (.setRes_of_draw (readFb_state s x y ch) _)

/-- All an instruction can do to the state. (In SC.RENDER's case `renderSprites` must stay folded: `cases h` would unfold it.) -/
theorem exec_cases {i : Instr} {s t : State} (h : exec i s = .next t) : ExecCase s i t := by
  cases i with
  | statusRd => exact execCase_statusRd h
  | palResolve => exact execCase_palResolve h
  | tileRowsel => exact execCase_tileRowsel h
  | tileFetch => exact execCase_tileFetch h
  | pbRead => exact execCase_pbRead h
  | fbRead => exact execCase_fbRead h
  | palSplit => cases h; exact .answer (by simp [queryOpcodes, Instr.opcode]) (.setRes ..)
  | tilePixel => cases h; exact .answer (by simp [queryOpcodes, Instr.opcode]) (.setRes ..)
  | modeWr => cases h; exact .modeWr ..
  | mpalWr => cases h; exact .mpalWr ..
  | cpalWr => cases h; exact .cpalWr ..
  | pbBegin => cases h; exact .pbBegin ..
  | pbWrite => cases h; exact .pbWrite ..
  | pbDiscard => cases h; exact .pbDiscard
  | scRender => rw [exec_scRender] at h; injection h with h; exact h ▸ .scRender ..
  | fbWrite => cases h; exact .fbWrite ..

/-- Settles O21: case by case, every field a case's effect writes is one R34 lists for the operation. -/
theorem onlyTheListedOperationsWriteEachElement : Obligations.OnlyTheListedOperationsWriteEachElement := by
  intro s t i h
  cases exec_cases h with
  | modeWr | mpalWr | cpalWr | pbBegin | pbWrite | pbDiscard | fbWrite => simp [Instr.opcode]
  | scRender ly tall =>
    have hr := SameButFrame.renderSprites s ly tall
    generalize s.renderSprites ly tall = u at hr
    rw [hr]
    simp [Instr.opcode]
  | answer hi ht => rw [ht]; simp
  | illegalOp hi => simpa using fun _ _ => hi
  | badBank => simp [Instr.opcode]

end Sys2Proof.Machine
end

section
/-! PROOFS of the family 20_memory.md: a byte the memory subsystem writes is what the next read gives, and nothing else changes
(R62). -/

namespace Sys2Proof.Machine

/-- A step takes the oldest waiting input (R111). -/
theorem step_input {s : State} {e : Input} {rest : List Input} (hw : s.params.wf = true) (hi : s.inbox = e :: rest) :
    step s = takeInput e { s with inbox := rest } := by
  simp [step, hw, takeNextInput, hi]

/-! ## OAM -/

theorem oamByte_writeOam_same {s : State} (h : s.oam.rising) (off : Fin 160) (v : Byte) :
    (s.writeOam off v).oamByte off.val = v :=
  memRead_memWrite_same h

theorem oamByte_writeOam_other (s : State) {off : Fin 160} {a : Nat} (h : a ≠ off.val) (v : Byte) :
    (s.writeOam off v).oamByte a = s.oamByte a :=
  memRead_memWrite_other h v s.oam

/-- Settles O15: the step is the write, so R62 is the read-after-write rule of the sparse bytes. -/
theorem oamWriteIsSeenAndNothingElse : Obligations.OamWriteIsSeenAndNothingElse := by
  intro s off v rest hw hrising hi
  exact ⟨_, step_input hw hi, oamByte_writeOam_same hrising off v, fun a ha => oamByte_writeOam_other _ ha v, rfl⟩

/-! ## VRAM -/

theorem vramByte_writeVram_same {s : State} (h0 : s.vram0.rising) (h1 : s.vram1.rising) (bank : Bool) (a : BitVec 16)
    (v : Byte) : (s.writeVram bank a v).vramByte bank a = v := by
  cases bank with
  | false => exact memRead_memWrite_same h0
  | true => exact memRead_memWrite_same h1

theorem vramByte_writeVram_other_bank (s : State) {bank b : Bool} (h : b ≠ bank) (a a' : BitVec 16) (v : Byte) :
    (s.writeVram bank a v).vramByte b a' = s.vramByte b a' := by
  obtain rfl := Bool.eq_not.2 h
  cases bank <;> rfl

theorem vramByte_writeVram_other_address (s : State) {a a' : BitVec 16} (h : a' ≠ a) (bank : Bool) (v : Byte) :
    (s.writeVram bank a v).vramByte bank a' = s.vramByte bank a' := by
  have hnat : a'.toNat ≠ a.toNat := BitVec.toNat_ne.1 h
  cases bank with
  | false => exact memRead_memWrite_other hnat v s.vram0
  | true => exact memRead_memWrite_other hnat v s.vram1

/-- A write to VRAM changes the two banks at most. -/
theorem writeVram_eq_set_banks (s : State) (bank : Bool) (a : BitVec 16) (v : Byte) :
    s.writeVram bank a v = { s with vram0 := (s.writeVram bank a v).vram0, vram1 := (s.writeVram bank a v).vram1 } := by
  cases bank <;> rfl

/-- Settles O16: the step is the write; a byte elsewhere is in the other bank, which the write leaves alone, or at another
address of the same bank. -/
theorem vramWriteIsSeenAndNothingElse : Obligations.VramWriteIsSeenAndNothingElse := by
  intro s bank a v rest hw h0 h1 hi
  let s' : State := { s with inbox := rest }
  refine ⟨s'.writeVram bank a v, step_input hw hi, vramByte_writeVram_same (s := s') h0 h1 bank a v, fun b a' hother => ?_,
    writeVram_eq_set_banks s' bank a v⟩
  by_cases hb : b = bank
  · subst hb
    exact vramByte_writeVram_other_address s' (hother.resolve_left (· rfl)) b v
  · exact vramByte_writeVram_other_bank s' hb a a' v

end Sys2Proof.Machine
end

section
/-! PROOFS of the family 30_encoding.md, the words: decoder and encoder agree (R100, R103), and a word that matches no row raises
ILLEGAL_OP (R104, R105). -/

namespace Sys2Proof

/-! ## From an instruction to its word and back -/

/-- Every encoded instruction is a word of its row (R103). -/
theorem encode_matches (i : Instr) : encode i &&& opcodeMask i.opcode = opcodeMatch i.opcode := by
  cases i with
  | modeWr => exact Laws.EncodeMatchesRow.modeWr ..
  | mpalWr => exact Laws.EncodeMatchesRow.mpalWr ..
  | cpalWr => exact Laws.EncodeMatchesRow.cpalWr ..
  | statusRd => exact Laws.EncodeMatchesRow.statusRd
  | palResolve => exact Laws.EncodeMatchesRow.palResolve ..
  | palSplit => exact Laws.EncodeMatchesRow.palSplit ..
  | tileRowsel => exact Laws.EncodeMatchesRow.tileRowsel ..
  | tileFetch => exact Laws.EncodeMatchesRow.tileFetch ..
  | tilePixel => exact Laws.EncodeMatchesRow.tilePixel ..
  | pbBegin => exact Laws.EncodeMatchesRow.pbBegin ..
  | pbWrite => exact Laws.EncodeMatchesRow.pbWrite ..
  | pbRead => exact Laws.EncodeMatchesRow.pbRead ..
  | pbDiscard => exact Laws.EncodeMatchesRow.pbDiscard
  | scRender => exact Laws.EncodeMatchesRow.scRender ..
  | fbWrite => exact Laws.EncodeMatchesRow.fbWrite ..
  | fbRead => exact Laws.EncodeMatchesRow.fbRead ..

/-- The operands of an encoded instruction read back: each field stands where it was placed, beside the others and below `op`. -/
theorem operandsOf_encode (i : Instr) : operandsOf i.opcode (encode i) = i := by
  cases i <;>
    simp (disch := decide) only [Instr.opcode, operandsOf, encode, argBits, BitVec.extractLsb'_or, BitVec.getLsbD_or,
      extract_placeField_same, extract_placeField_apart, extract_placeBit_apart, getLsbD_placeBit_same,
      getLsbD_placeField_apart, getLsbD_placeBit_apart, BitVec.or_zero, BitVec.zero_or, Bool.or_false, Bool.false_or]

/-- The operation of the operands read for it. -/
@[simp] theorem operandsOf_opcode (o : Opcode) (w : Word) : (operandsOf o w).opcode = o := by
  cases o <;> rfl

/-! ## What decodes -/

theorem mem_allOpcodes (o : Opcode) : o ∈ allOpcodes := by
  cases o <;> decide

/-- A word has the operation whose code stands in `op` (R102). -/
theorem opcodeOf_eq_some {w : Word} {o : Opcode} : opcodeOf w = some o ↔ opcodeBits o = opField w := by
  constructor
  · intro h
    simpa using List.find?_some h
  · intro h
    unfold opcodeOf
    rw [← h]
    cases o <;> decide

/-- A word has no operation when `op` is none of the sixteen codes (R105). -/
theorem opcodeOf_eq_none {w : Word} : opcodeOf w = none ↔ ∀ o, opcodeBits o ≠ opField w := by
  simp [opcodeOf, mem_allOpcodes]

/-- The mask of a row keeps the whole of `op`, so a word that matches the row has its `op`. -/
theorem opcodeOf_of_matches {w : Word} {o : Opcode} (h : w &&& opcodeMask o = opcodeMatch o) : opcodeOf w = some o := by
  have hmask : (opcodeMask o).extractLsb' 26 6 = BitVec.allOnes 6 := by cases o <;> decide
  have hmatch : opField (opcodeMatch o) = opcodeBits o := by cases o <;> decide
  rw [opcodeOf_eq_some, ← hmatch, ← h, opField, BitVec.extractLsb'_and, hmask, BitVec.and_allOnes, opField]

/-- A word that matches a row decodes to the row's operation with the operands as they stand (R103). -/
theorem decode_of_matches {w : Word} {o : Opcode} (h : w &&& opcodeMask o = opcodeMatch o) :
    decode w = .ok (operandsOf o w) := by
  simp [decode, opcodeOf_of_matches h, h]

/-- A word that decodes matches the row of what it decodes to, and has its operands. -/
theorem matches_of_decode {w : Word} {i : Instr} (h : decode w = .ok i) :
    w &&& opcodeMask i.opcode = opcodeMatch i.opcode ∧ operandsOf i.opcode w = i := by
  unfold decode at h
  split at h
  · cases h
  · split at h <;> cases h
    rename_i hm
    simpa using hm

/-- Settles O1: the word of an instruction matches its row, and its operands read back. -/
theorem decodeOfEncodeIsTheInstruction : Obligations.DecodeOfEncodeIsTheInstruction := by
  intro i
  rw [decode_of_matches (encode_matches i), operandsOf_encode]

/-! ## From a word to its instruction and back -/

/-- A field read from a word and placed where it stood is the word under the field's mask. -/
theorem placeField_extract (w : Word) (lo n : Nat) :
    placeField (w.extractLsb' lo n) lo = w &&& placeField (BitVec.allOnes n) lo := by
  apply BitVec.eq_of_getLsbD_eq
  intro k hk
  rw [BitVec.getLsbD_and, getLsbD_placeField, getLsbD_placeField, BitVec.getLsbD_extractLsb', BitVec.getLsbD_allOnes]
  by_cases hlo : lo ≤ k
  · rw [Nat.add_sub_cancel' hlo]
    simp [hk, hlo, Bool.and_comm]
  · simp [hlo]

/-- A bit read from a word and placed where it stood is the word under the bit's mask. -/
theorem placeBit_getLsbD (w : Word) (lo : Nat) :
    placeBit (w.getLsbD lo) lo = w &&& placeField (BitVec.allOnes 1) lo := by
  rw [← placeField_extract, placeBit]
  congr 1
  apply BitVec.eq_of_getLsbD_eq
  intro k hk
  obtain rfl : k = 0 := by omega
  simp

/-- The operands read from a word, placed again, are the word without the bits of its row's mask: the fields fill all that the
mask leaves (R103). -/
theorem argBits_operandsOf (o : Opcode) (w : Word) : argBits (operandsOf o w) = w &&& ~~~opcodeMask o := by
  cases o with
  | statusRd | pbDiscard => exact BitVec.and_zero.symm
  | _ =>
    simp only [operandsOf, argBits, placeField_extract, placeBit_getLsbD, ← BitVec.and_or_distrib_left]
    rfl

/-- The `op` of a row, placed, is the row's match (R103). -/
theorem placeField_opcodeBits (o : Opcode) : placeField (opcodeBits o) 26 = opcodeMatch o := by
  cases o <;> decide

/-- A word that matches a row is the encoding of the operands read from it. -/
theorem encode_operandsOf {w : Word} {o : Opcode} (h : w &&& opcodeMask o = opcodeMatch o) : encode (operandsOf o w) = w := by
  rw [encode, operandsOf_opcode, placeField_opcodeBits, argBits_operandsOf, ← h, ← BitVec.and_or_distrib_left,
    BitVec.or_not_self, BitVec.and_allOnes]

/-- Settles O2: what a word decodes to has its row and its operands. -/
theorem decodedWordIsItsEncoding : Obligations.DecodedWordIsItsEncoding := by
  intro w i h
  obtain ⟨hm, hi⟩ := matches_of_decode h
  rw [← hi]
  exact encode_operandsOf hm

/-! ## The rows of R103 -/

/-- The spec's table is the model's. -/
theorem mem_rows {row : Opcode × Word × Word} (h : row ∈ Spec.rows) : row = (row.1, opcodeMask row.1, opcodeMatch row.1) := by
  revert row
  decide

/-- Settles O3: a word that decodes matches its row, and one that matches decodes. -/
theorem commandExactlyWhenMaskMatches : Obligations.CommandExactlyWhenMaskMatches := by
  intro row hrow w
  rw [mem_rows hrow]
  constructor
  · rintro ⟨i, hd, hi⟩
    exact hi ▸ (matches_of_decode hd).1
  · intro hm
    exact ⟨_, decode_of_matches hm, operandsOf_opcode ..⟩

/-- Settles O4: closed words, read by the decoder. -/
theorem sampleWordsDecode : Obligations.SampleWordsDecode := by
  unfold Obligations.SampleWordsDecode
  decide

end Sys2Proof
end

section
/-! PROOFS of the family 30_encoding.md, the commands: what faults as illegal (R104 to R106), what the result word holds (R101), and
what PB.FILL stands for (R110). -/

namespace Sys2Proof.Machine

/-! ## Words that are no command -/

/-- `op` is the word's quotient by 2^26 (R100). -/
theorem opField_toNat (w : Word) : (opField w).toNat = w.toNat / 2 ^ 26 := by
  have := w.isLt
  rw [opField, BitVec.extractLsb'_toNat, Nat.shiftRight_eq_div_pow]
  omega

/-- ILLEGAL_OP raised in a block that is not halted (R263). -/
theorem raiseFault_illegalOp {s : State} (h : s.fault = 0#4) : raiseFault .illegalOp s = Spec.faulted s 1#4 := by
  simp [raiseFault, h, Spec.faulted, faultWord, FaultCode.bits]

/-- A block that is not halted answers a word that does not decode with ILLEGAL_OP (R111, R262). -/
theorem step_of_decode_error {s : State} {w : Word} {rest : List Input} {r : Reject} (hw : s.params.wf = true)
    (hi : s.inbox = .command w :: rest) (hf : s.fault = 0#4) (hd : decode w = .error r) :
    step s = .next (Spec.faulted { s with inbox := rest } 1#4) := by
  have hstatus : w ≠ 0x1C000000#32 := by
    rintro rfl
    rw [status_decodes] at hd
    cases hd
  rw [step_command hw hi, ← raiseFault_illegalOp (s := { s with inbox := rest }) hf]
  simp [runCommand, hstatus, State.halted, hf, hd]

/-- The spec's sixteen values of `op` are the model's (R102). -/
theorem opcodeBits_mem_assignedOps (o : Opcode) : (opcodeBits o).toNat ∈ Spec.assignedOps := by
  cases o <;> decide

/-- Settles O5: a word whose `op` is not assigned does not decode. -/
theorem unassignedOpcodeFaults : Obligations.UnassignedOpcodeFaults := by
  intro s w rest hw hi hf hop
  have hnone : opcodeOf w = none := opcodeOf_eq_none.2 fun o ho => hop <| by
    rw [← opField_toNat, ← ho]
    exact opcodeBits_mem_assignedOps o
  exact step_of_decode_error hw hi hf (r := .unassignedOp) (by simp [decode, hnone])

/-- Settles O6: a word with a row's `op` that does not match the row does not decode. -/
theorem reservedBitFaults : Obligations.ReservedBitFaults := by
  intro s w rest row hw hi hf hrow hop hm
  rw [mem_rows hrow] at hop hm
  have hsome : opcodeOf w = some row.1 := by
    rw [← opField_toNat, ← opField_toNat] at hop
    rw [opcodeOf_eq_some, BitVec.eq_of_toNat_eq hop, ← opcodeOf_eq_some]
    cases row.1 <;> decide
  exact step_of_decode_error hw hi hf (r := .reservedBit) (by simpa [decode, hsome] using hm)

/-! ## Reserved operand values (R106) -/

theorem palResolveLegal_eq_false {mode l : Bool} {sel : BitVec 3} :
    palResolveLegal mode l sel = false ↔ mode = false ∧ (2 ≤ sel.toNat ∨ l = false) := by
  simp [palResolveLegal, Nat.succ_le_iff, imp_iff_not_or]

theorem tileRowselLegal_eq_false {row : BitVec 4} {tall : Bool} :
    tileRowselLegal row tall = false ↔ tall = false ∧ 8 ≤ row.toNat := by
  simp [tileRowselLegal]

theorem tileFetchLegal_eq_false {off : BitVec 5} : tileFetchLegal off = false ↔ off.toNat % 2 = 1 := by
  simp [tileFetchLegal, BitVec.getLsbD, Nat.testBit_zero]

/-- The ill-formed instructions are the three of R106. -/
theorem wellFormed_eq_false {i : Instr} : i.wellFormed = false ↔
    (∃ ci l sel, i = .palResolve false l sel ci ∧ (2 ≤ sel.toNat ∨ l = false)) ∨
    (∃ row yflip, i = .tileRowsel row false yflip ∧ 8 ≤ row.toNat) ∨
    (∃ tile bank off, i = .tileFetch tile bank off ∧ off.toNat % 2 = 1) := by
  cases i with
  | palResolve mode l sel ci =>
    rw [Instr.wellFormed, palResolveLegal_eq_false]
    constructor
    · rintro ⟨rfl, hsel⟩
      exact .inl ⟨ci, l, sel, rfl, hsel⟩
    · rintro (⟨_, _, _, h, hsel⟩ | ⟨_, _, h, -⟩ | ⟨_, _, _, h, -⟩) <;> cases h
      exact ⟨rfl, hsel⟩
  | tileRowsel row tall yflip => simp [Instr.wellFormed, tileRowselLegal_eq_false]
  | tileFetch tile bank off => simp [Instr.wellFormed, tileFetchLegal_eq_false]
  | _ => simp [Instr.wellFormed]

/-- An ill-formed instruction raises ILLEGAL_OP (R123, R141, R144). -/
theorem exec_of_not_wellFormed {i : Instr} (h : i.wellFormed = false) (s : State) :
    exec i s = .next (raiseFault .illegalOp s) := by
  rcases wellFormed_eq_false.1 h with ⟨ci, l, sel, rfl, hsel⟩ | ⟨row, yflip, rfl, hrow⟩ | ⟨tile, bank, off, rfl, hoff⟩
  · simp [exec, execPalResolve, hsel]
  · simp [exec, execTileRowsel, spriteHeight, hrow]
  · have hodd : off.getLsbD 0 = true := by simp [BitVec.getLsbD, Nat.testBit_zero, hoff]
    simp [exec, execTileFetch, hodd]

/-- Every instruction completes (R112). -/
theorem exec_completes (i : Instr) (s : State) : ∃ t, exec i s = .next t := by
  cases i with
  | palResolve | tileRowsel | tileFetch =>
    simp only [exec, execPalResolve, execTileRowsel, execTileFetch]
    split_ifs <;> exact ⟨_, rfl⟩
  | scRender => exact ⟨_, exec_scRender ..⟩
  | _ => exact ⟨_, rfl⟩

/-! ## Result words (R101, R103) -/

/-- The result word of a fault or a halt as a number (R101). -/
theorem faultWord_eq (fault : BitVec 4) : faultWord fault = BitVec.ofNat 32 (2 ^ 31 + fault.toNat) := by
  revert fault
  decide

theorem raiseFault_fault_ne_zero (c : FaultCode) (s : State) : (raiseFault c s).fault ≠ 0#4 := by
  rw [raiseFault_fault]
  split
  · cases c <;> decide
  · assumption

/-- A value extended to a word has no bit above its width. -/
theorem setWidth_and_allOnes {n : Nat} (v : BitVec n) : v.setWidth 32 &&& (BitVec.allOnes n).setWidth 32 = v.setWidth 32 := by
  rw [← BitVec.setWidth_and, BitVec.and_allOnes]

/-- STATUS.RD's word has its five fields and bits 7:3 clear (R244). -/
theorem statusWord_and_resultBits (mode : BitVec 2) (pbOpen : Bool) (pbLy : Byte) (fault : BitVec 4) :
    statusWord mode pbOpen pbLy fault &&& Spec.resultBits .statusRd = statusWord mode pbOpen pbLy fault := by
  have hbits : Spec.resultBits .statusRd =
      (BitVec.allOnes 4 ++ BitVec.allOnes 8 ++ 0#5 ++ BitVec.allOnes 1 ++ BitVec.allOnes 2 : BitVec 20).setWidth 32 := by decide
  simp only [hbits, statusWord, ← BitVec.setWidth_and, BitVec.and_append, BitVec.and_allOnes, BitVec.and_zero]

/-- No operation has bit 31 among its data bits (R101). -/
theorem resultBits_sign (i : Instr) : (Spec.resultBits i).getLsbD 31 = false := by
  cases i with
  | palResolve mode => cases mode <;> simp [Spec.resultBits]
  | _ => simp [Spec.resultBits]

/-- `t` answers instruction `i` run in `s`: FAULT stays, and the result word has only the data bits of `i`'s row (R103). -/
structure Answers (i : Instr) (s t : State) : Prop where
  fault : t.fault = s.fault
  res : t.res &&& Spec.resultBits i = t.res

/-- An answer has bit 31 of its result word 0 (R101). -/
theorem Answers.sign {i : Instr} {s t : State} (h : Answers i s t) : t.res.getLsbD 31 = false := by
  rw [← h.res, BitVec.getLsbD_and, resultBits_sign, Bool.and_false]

/-- STATUS.RD answers in every state (R244). -/
theorem answers_statusRd {s t : State} (h : exec .statusRd s = .next t) : Answers .statusRd s t := by
  injection h with h
  subst h
  refine ⟨?_, statusWord_and_resultBits ..⟩
  rw [setRes_fault]
  split <;> rfl

/-- PAL.RESOLVE with legal operands answers (R121, R122). -/
theorem answers_palResolve {s t : State} {mode l : Bool} {sel : BitVec 3} {ci : BitVec 2} (hl : palResolveLegal mode l sel = true)
    (h : exec (.palResolve mode l sel ci) s = .next t) : Answers (.palResolve mode l sel ci) s t := by
  cases mode with
  | true => cases h; exact ⟨rfl, setWidth_and_allOnes _⟩
  | false =>
    have hlegal : ¬ (2 ≤ sel.toNat ∨ l = false) := by simpa [palResolveLegal] using hl
    rw [exec, execPalResolve, if_neg (by decide), if_neg hlegal] at h
    cases h
    exact ⟨rfl, setWidth_and_allOnes _⟩

/-- TILE.ROWSEL's operands are legal when the row lies in the sprite (R141). -/
theorem tileRowselLegal_eq_true {row : BitVec 4} {tall : Bool} :
    tileRowselLegal row tall = true ↔ row.toNat < spriteHeight tall := by
  revert row tall
  decide

/-- TILE.ROWSEL with a row inside the sprite answers (R141). -/
theorem answers_tileRowsel {s t : State} {row : BitVec 4} {tall yflip : Bool} (hl : tileRowselLegal row tall = true)
    (h : exec (.tileRowsel row tall yflip) s = .next t) : Answers (.tileRowsel row tall yflip) s t := by
  rw [exec, execTileRowsel, if_neg (Nat.not_le.2 (tileRowselLegal_eq_true.1 hl))] at h
  cases h
  exact ⟨rfl, setWidth_and_allOnes _⟩

/-- TILE.FETCH with an even offset answers, or raises BAD_BANK (R142, R143). -/
theorem answers_tileFetch {s t : State} {tile : Byte} {bank : Bool} {off : BitVec 5} (hl : tileFetchLegal off = true)
    (h : exec (.tileFetch tile bank off) s = .next t) :
    Answers (.tileFetch tile bank off) s t ∨ t = raiseFault .badBank s := by
  have heven : ¬ off.getLsbD 0 = true := by simpa [tileFetchLegal] using hl
  rw [exec, execTileFetch, if_neg heven] at h
  split at h <;> cases h
  · exact .inr rfl
  · exact .inl ⟨rfl, setWidth_and_allOnes _⟩

/-- A well-formed instruction answers, but for TILE.FETCH, which may raise BAD_BANK (R106, R143). -/
theorem answers_of_wellFormed {i : Instr} {s t : State} (hwf : i.wellFormed = true) (h : exec i s = .next t) :
    Answers i s t ∨ t = raiseFault .badBank s := by
  cases i with
  | tileFetch => exact answers_tileFetch hwf h
  | palResolve => exact .inl (answers_palResolve hwf h)
  | tileRowsel => exact .inl (answers_tileRowsel hwf h)
  | statusRd => exact .inl (answers_statusRd h)
  | palSplit | tilePixel => cases h; exact .inl ⟨rfl, setWidth_and_allOnes _⟩
  | pbRead x ly =>
    rw [exec_pbRead] at h
    cases h
    refine .inl ⟨?_, setWidth_and_allOnes _⟩
    rcases readPb_state s x ly with h | h <;> simp [h]
  | fbRead x y ch =>
    rw [exec_fbRead] at h
    cases h
    refine .inl ⟨?_, setWidth_and_allOnes _⟩
    rcases readFb_state s x y ch with h | h <;> simp [h]
  | scRender ly tall =>
    rw [exec_scRender] at h
    injection h with h
    refine .inl ⟨?_, by rw [← h, setRes_res, BitVec.zero_and]⟩
    rw [← h, setRes_fault, SameButFrame.renderSprites s ly tall]
  | pbWrite => cases h; exact .inl ⟨writePb_fault .., BitVec.zero_and⟩
  | fbWrite => cases h; exact .inl ⟨writeFb_fault .., BitVec.zero_and⟩
  | modeWr | mpalWr | cpalWr | pbBegin | pbDiscard => cases h; exact .inl ⟨rfl, BitVec.zero_and⟩

/-- An instruction answers or raises a fault. -/
theorem answers_or_faults {i : Instr} {s t : State} (h : exec i s = .next t) : Answers i s t ∨ ∃ c, t = raiseFault c s := by
  cases hwf : i.wellFormed with
  | true => exact (answers_of_wellFormed hwf h).imp_right fun ht => ⟨_, ht⟩
  | false =>
    rw [exec_of_not_wellFormed hwf] at h
    injection h with h
    exact .inr ⟨_, h.symm⟩

/-- Settles O7: the ill-formed instructions are R106's three and raise ILLEGAL_OP; a well-formed one keeps FAULT or raises
BAD_BANK. -/
theorem reservedOperandsAreWhatFaultsIllegal : Obligations.ReservedOperandsAreWhatFaultsIllegal := by
  intro i s hf
  refine ⟨wellFormed_eq_false, fun hwf => by rw [exec_of_not_wellFormed hwf, raiseFault_illegalOp hf], fun hwf => ?_⟩
  obtain ⟨t, ht⟩ := exec_completes i s
  refine ⟨t, ht, ?_⟩
  rcases answers_of_wellFormed hwf ht with h | rfl
  · simp [h.fault, hf]
  · simp [hf, FaultCode.bits]

/-- Settles O12: in each case of R264 the step answers, and so has data bits alone, or reports the FAULT it leaves. -/
theorem resultWordTellsFaultOrData : Obligations.ResultWordTellsFaultOrData := by
  intro s t w rest hi h
  rcases command_cases hi h with ⟨rfl, hx⟩ | ⟨hw, hf, rfl⟩ | ⟨hw, -, -, rfl⟩ | ⟨hw, hf, i, hd, hx⟩
  · have ht := answers_statusRd hx
    exact ⟨fun hc => absurd rfl hc.2, fun _ => ⟨_, status_decodes, ht.res, ht.sign⟩⟩
  · exact ⟨fun _ => faultWord_eq _, fun hc => absurd ⟨hf, hw⟩ hc⟩
  · exact ⟨fun _ => faultWord_eq _, fun hc => absurd ⟨raiseFault_fault_ne_zero _ _, hw⟩ hc⟩
  · rcases answers_or_faults hx with ht | ⟨c, rfl⟩
    · exact ⟨fun hc => absurd (ht.fault.trans hf) hc.1, fun _ => ⟨i, hd, ht.res, ht.sign⟩⟩
    · exact ⟨fun _ => faultWord_eq _, fun hc => absurd ⟨raiseFault_fault_ne_zero _ _, hw⟩ hc⟩

/-! ## PB.FILL (R110) -/

/-- Running a list of commands begins with the first one's meaning. -/
theorem runAll_cons {i : Instr} {s t : State} (h : exec i s = .next t) (is : List Instr) :
    Spec.runAll (i :: is) s = Spec.runAll is t := by
  simp [Spec.runAll, h]

/-- PB.WRITE to an open buffer, on the frame (R162). -/
theorem exec_pbWrite_open {s : State} (ho : s.pbOpen = true) {x : Byte} (hx : x.toNat < s.params.screenW) (ci : BitVec 2)
    (prio : Bool) : exec (.pbWrite x ci prio) s = .next { s with pb := s.pb.set x.toNat ⟨true, ci, prio⟩, res := 0#32 } := by
  simp [exec, execPbWrite, State.writePb, ho, hx, State.setRes]

theorem take_succ_set {α : Type} {l : List α} {n : Nat} (h : n < l.length) (a : α) :
    (l.set n a).take (n + 1) = l.take n ++ [a] := by
  rw [List.take_add_one, List.take_set_of_le (Nat.le_refl n), List.getElem?_set_self h, Option.toList_some]

/-- The PB.WRITEs of PB.FILL for the last `k` columns, from column `n` on: those columns are filled, the earlier ones stay. -/
theorem runAll_pbWrites {ci : BitVec 2} {prio : Bool} (k : Nat) {n : Nat} {s : State} (ho : s.pbOpen = true)
    (hw : s.params.screenW ≤ 256) (hl : s.pb.length = s.params.screenW) (hk : n + k = s.params.screenW) (hr : s.res = 0#32) :
    Spec.runAll ((List.range' n k).map fun x => .pbWrite (BitVec.ofNat 8 x) ci prio) s =
      some { s with pb := s.pb.take n ++ List.replicate k ⟨true, ci, prio⟩ } := by
  induction k generalizing n s with
  | zero => simp [Spec.runAll, List.take_of_length_le (by omega : s.pb.length ≤ n)]
  | succ k ih =>
    have hx : (BitVec.ofNat 8 n).toNat = n := by rw [BitVec.toNat_ofNat]; omega
    have hfirst := exec_pbWrite_open ho (x := BitVec.ofNat 8 n) (by omega) ci prio
    rw [hx] at hfirst
    rw [List.range'_succ, List.map_cons, runAll_cons hfirst,
      ih (s := { s with pb := s.pb.set n ⟨true, ci, prio⟩, res := 0#32 }) ho hw (by simpa using hl) (by simp only; omega) rfl]
    simp [take_succ_set (by omega : n < s.pb.length), List.replicate_succ, hr]

/-- Settles O38: PB.BEGIN opens the scanline, and the writes fill it from column 0. -/
theorem pbFillMakesTheScanlineReady : Obligations.PbFillMakesTheScanlineReady := by
  intro s ly ci prio hw hl
  refine ⟨{ (s.beginPb ly).setRes 0#32 with pb := List.replicate s.params.screenW ⟨true, ci, prio⟩ }, ?_, rfl, ?_, rfl⟩
  · have hlength : (invalidEntries s.pb).length = s.params.screenW := by simpa [invalidEntries] using hl
    rw [expandPbFill, runAll_cons (t := (s.beginPb ly).setRes 0#32) rfl, List.range_eq_range']
    exact runAll_pbWrites _ rfl ((wf_iff _).1 hw).2.1 hlength (Nat.zero_add _) rfl
  · exact .inr ⟨rfl, rfl, List.length_replicate, fun e he => by rw [List.eq_of_mem_replicate he]⟩

end Sys2Proof.Machine
end

section
/-! PROOFS of the family 40_common.md: a step runs the decoded command (R111), and an operation that writes nothing changes
nothing (R112). -/

namespace Sys2Proof.Machine

/-! ## The step -/

/-- One word alone is STATUS.RD: its row has no operand bit (R103). -/
theorem decode_eq_statusRd {w : Word} : decode w = .ok .statusRd ↔ w = 0x1C000000#32 := by
  constructor
  · intro h
    obtain ⟨hm, -⟩ := matches_of_decode h
    exact BitVec.and_allOnes.symm.trans hm
  · rintro rfl
    exact status_decodes

/-- A word that decodes runs its instruction in a block that is not halted, STATUS.RD's in every block (R264). -/
theorem runCommand_of_decode {s : State} {w : Word} {i : Instr} (hd : decode w = .ok i) (hr : s.fault = 0#4 ∨ i = .statusRd) :
    runCommand w s = exec i s := by
  by_cases hw : w = 0x1C000000#32
  · obtain rfl : Instr.statusRd = i := Except.ok.inj ((decode_eq_statusRd.2 hw).symm.trans hd)
    simp [runCommand, hw]
  · have hf : s.fault = 0#4 := hr.resolve_right fun hi => hw (decode_eq_statusRd.1 (hi ▸ hd))
    simp [runCommand, hw, State.halted, hf, hd]

/-- Settles O8: the step runs the waiting word, and the word runs what it decodes to. -/
theorem stepRunsDecodedCommand : Obligations.StepRunsDecodedCommand := by
  intro s w rest i hw hi hd hr
  rw [step_command hw hi]
  exact runCommand_of_decode hd hr

/-! ## The queries -/

/-- A query that answers keeps FAULT. -/
theorem SameButAnswer.fault {s t : State} (h : SameButAnswer s t) : t.fault = s.fault := by
  rw [h]

/-- A fault raised in a block that is not halted leaves its own code (R263). -/
theorem raiseFault_of_not_halted {s : State} (c : FaultCode) (h : s.fault = 0#4) : raiseFault c s = Spec.faulted s c.bits := by
  simp [raiseFault, h, Spec.faulted, faultWord]

/-- A fault that changes FAULT was raised in a block that is not halted (R263). -/
theorem fault_eq_zero_of_raiseFault_ne {c : FaultCode} {s : State} (h : (raiseFault c s).fault ≠ s.fault) : s.fault = 0#4 := by
  by_contra hf
  exact h (by rw [raiseFault_fault, if_neg hf])

/-- Settles O22: a query answers, which keeps FAULT, or faults; the operations that write are no queries. -/
theorem queriesChangeNoState : Obligations.QueriesChangeNoState := by
  intro s t i h hi
  cases exec_cases h with
  | modeWr | mpalWr | cpalWr | pbBegin | pbWrite | pbDiscard | scRender | fbWrite => simp [Instr.opcode] at hi
  | answer _ ht => exact ⟨by rw [ht], fun hne => absurd ht.fault hne⟩
  | illegalOp ho =>
    refine ⟨rfl, fun hne => ?_⟩
    have hf := fault_eq_zero_of_raiseFault_ne hne
    rw [raiseFault_of_not_halted _ hf]
    exact ⟨ho, hf, rfl, .inl rfl⟩
  | badBank tile off =>
    refine ⟨rfl, fun hne => ?_⟩
    have hf := fault_eq_zero_of_raiseFault_ne hne
    rw [raiseFault_of_not_halted _ hf]
    exact ⟨by simp [Instr.opcode], hf, rfl, .inr ⟨rfl, rfl⟩⟩

end Sys2Proof.Machine
end

section
/-! PROOFS of the family 41_palette_resolver.md: the shade, the stored colour, the fault and the channel split (R121 to R124), and
what a monochrome sprite pixel leaves in the frame (R125, R193, R195). -/

namespace Sys2Proof.Machine

/-! ## PAL.RESOLVE -/

/-- PAL.RESOLVE in monochrome mode with legal operands answers the shade (R121). -/
theorem exec_palResolve_monochrome {sel : BitVec 3} (h : sel.toNat < 2) (s : State) (ci : BitVec 2) :
    exec (.palResolve false true sel ci) s = .next (s.setRes ((s.resolveShade (sel.extractLsb' 0 1) ci).setWidth 32)) := by
  have hlegal : ¬ (2 ≤ sel.toNat ∨ true = false) := by simpa using h
  rw [exec, execPalResolve, if_neg (by decide), if_neg hlegal]

/-- Settles O28: the low bit of `sel` selects the palette byte, and its shade is the byte's base-4 digit `ci`. -/
theorem monochromeResolveGivesShade : Obligations.MonochromeResolveGivesShade := by
  intro s sel ci hsel
  have hindex : sel.extractLsb' 0 1 = BitVec.ofNat 1 sel.toNat := by
    rw [BitVec.ofNat_toNat, BitVec.setWidth_eq_extractLsb' (by decide)]
  rw [exec_palResolve_monochrome hsel, ← BitVec.ofNat_toNat, State.resolveShade, shadeOf_toNat, hindex, State.setRes]

/-- PAL.RESOLVE in colour mode answers the entry, whichever it is (R122). -/
theorem exec_palResolve_colour (s : State) (l : Bool) (p : BitVec 3) (k : BitVec 2) :
    exec (.palResolve true l p k) s = .next (s.setRes (BitVec.ofNat 32 (s.cpalAt l p k).toNat)) := by
  rw [BitVec.ofNat_toNat]
  rfl

/-- An entry written is the entry read (R243). -/
theorem cpalAt_writeCpal_same (s : State) (l : Bool) (p : BitVec 3) (k : BitVec 2) (v : BitVec 15) :
    (s.writeCpal l p k v).cpalAt l p k = v := by
  simp [State.cpalAt]

/-- Settles O29: the answer is the stored entry, and after a write that is the value written. -/
theorem colourResolveGivesStoredColour : Obligations.ColourResolveGivesStoredColour := by
  intro s l p k rgb15
  refine ⟨exec_palResolve_colour s l p k, ?_⟩
  rw [exec_palResolve_colour, cpalAt_writeCpal_same, State.setRes]

/-- SC.RENDER keeps FAULT (R123, R196). -/
theorem renderKeepsFault (s : State) : Spec.renderKeepsFault s := by
  intro ly tall
  refine ⟨_, exec_scRender s ly tall, ?_⟩
  rw [setRes_fault, SameButFrame.renderSprites s ly tall]

/-- Settles O30: operands that name no palette are ill-formed, and an ill-formed instruction raises ILLEGAL_OP. -/
theorem resolveWithoutPaletteFaults : Obligations.ResolveWithoutPaletteFaults := by
  intro s
  refine ⟨fun isSprite sel ci hf hsel => ?_, renderKeepsFault s⟩
  have hill : (Instr.palResolve false isSprite sel ci).wellFormed = false := palResolveLegal_eq_false.2 ⟨rfl, hsel⟩
  rw [exec_of_not_wellFormed hill, raiseFault_illegalOp hf]

/-! ## PAL.SPLIT -/

/-- The three channel values in the low three bytes of a word, channel 0 lowest (R124). -/
def Channels.word (v : Channels) : Word := (v.ch2 ++ v.ch1 ++ v.ch0 : BitVec 24).setWidth 32

/-- PAL.SPLIT answers the word of the colour's channels (R124). -/
theorem exec_palSplit (s : State) (rgb15 : BitVec 15) :
    exec (.palSplit rgb15) s = .next (s.setRes (splitColour s.params rgb15).word) := rfl

/-- Two bit strings one after the other, as a number. -/
theorem toNat_append_eq_add {m n : Nat} (a : BitVec m) (b : BitVec n) : (a ++ b).toNat = 2 ^ n * a.toNat + b.toNat := by
  rw [BitVec.toNat_append, ← Nat.shiftLeft_add_eq_or_of_lt b.isLt, Nat.shiftLeft_eq, Nat.mul_comm]

theorem Channels.word_toNat (v : Channels) : v.word.toNat = v.ch0.toNat + 256 * v.ch1.toNat + 65536 * v.ch2.toNat := by
  have := v.ch0.isLt; have := v.ch1.isLt; have := v.ch2.isLt
  rw [word, BitVec.toNat_setWidth, toNat_append_eq_add, toNat_append_eq_add]
  omega

/-- The four bytes of the word: the channels, then 0. -/
theorem Channels.word_bytes (v : Channels) : v.word.extractLsb' 0 8 = v.ch0 ∧ v.word.extractLsb' 8 8 = v.ch1 ∧
    v.word.extractLsb' 16 8 = v.ch2 ∧ v.word.extractLsb' 24 8 = 0#8 := by
  have := v.ch0.isLt; have := v.ch1.isLt; have := v.ch2.isLt
  refine ⟨?_, ?_, ?_, ?_⟩ <;> apply BitVec.eq_of_toNat_eq <;>
    simp only [BitVec.extractLsb'_toNat, word_toNat, Nat.shiftRight_eq_div_pow, BitVec.toNat_ofNat] <;> omega

/-- `expand5` of a 5-bit value is the table's entry (R124). -/
theorem expand5_getElem?_eq_expandChannel (p : Params) (v : BitVec 5) :
    p.expand5.toList[v.toNat]? = some (expandChannel p v) := by
  rw [Vector.getElem?_toList, Vector.getElem?_eq_getElem v.isLt]
  rfl

/-- `expand5` as the zero extension (R8). -/
theorem expandChannel_toNat_of_defaults {p : Params} (h : p.expand5 = Params.defaults.expand5) (v : BitVec 5) :
    (expandChannel p v).toNat = v.toNat := by
  simp [expandChannel, h, Params.defaults, Nat.mod_eq_of_lt (v.isLt.trans (by decide : 2 ^ 5 < 256))]

/-- The three 5-bit fields of a colour as numbers (R86). -/
theorem colourFields_toNat (c : BitVec 15) : (c.extractLsb' 0 5).toNat = c.toNat % 32 ∧
    (c.extractLsb' 5 5).toNat = c.toNat / 32 % 32 ∧ (c.extractLsb' 10 5).toNat = c.toNat / 1024 % 32 := by
  simp [Nat.shiftRight_eq_div_pow]

/-- Settles O31: each byte of the answer is the table's entry for one field of the colour. -/
theorem splitGivesThreeChannels : Obligations.SplitGivesThreeChannels := by
  intro s c
  obtain ⟨hfield0, hfield1, hfield2⟩ := colourFields_toNat c
  obtain ⟨hbyte0, hbyte1, hbyte2, hbyte3⟩ := (splitColour s.params c).word_bytes
  refine ⟨_, exec_palSplit s c, rfl, ?_, ?_, ?_, hbyte3, fun hzext => ?_⟩
  · rw [← hfield0, expand5_getElem?_eq_expandChannel, setRes_res, hbyte0, splitColour]
  · rw [← hfield1, expand5_getElem?_eq_expandChannel, setRes_res, hbyte1, splitColour]
  · rw [← hfield2, expand5_getElem?_eq_expandChannel, setRes_res, hbyte2, splitColour]
  · have := c.isLt
    simp only [setRes_res, Channels.word_toNat, splitColour, expandChannel_toNat_of_defaults hzext, hfield0, hfield1, hfield2]
    omega

/-! ## The pixels of SC.RENDER -/

/-- One column of a sprite draws its pixel unless its colour index is 0 (R190). -/
theorem drawColumn_eq (attr ly left b0 b1 : Byte) (s : State) (c : BitVec 3) :
    s.drawColumn attr ly left b0 b1 c =
      if pixelIndex b0 b1 c (attrXflip attr) = 0#2 then s
      else s.drawPixel attr ly (pixelColumn left c) (pixelIndex b0 b1 c (attrXflip attr)) := rfl

section
variable {R : State → State → Prop} {ly : Byte} (hrefl : ∀ s, R s s) (htrans : ∀ {s t u}, R s t → R t u → R s u)
  (hdraw : ∀ s, R s s.drawFree) (hwrite : ∀ s x attr ci, R s (s.writePixel x ly (s.pixelChannels attr ci)))
include hrefl htrans hdraw hwrite

/-- A relation that holds across a draw of a free value and across the writes of a shown pixel holds across one pixel's work. -/
theorem drawPixel_relation (s : State) (attr x : Byte) (ci : BitVec 2) : R s (s.drawPixel attr ly x ci) := by
  have hshown : R s (s.pixelShown attr ly x).2 := by
    rcases pixelShown_state s attr ly x with h | h <;> rw [h]
    · exact hrefl s
    · exact hdraw s
  rw [drawPixel_eq]
  split
  · exact htrans hshown (hwrite ..)
  · exact hshown

/-- Such a relation holds across the whole sprite pass. -/
theorem renderSprites_relation (s : State) (tall : Bool) : R s (s.renderSprites ly tall) := by
  refine foldl_relation hrefl htrans (fun t i => ?_) _ s
  rw [drawSprite_eq]
  split
  · refine foldl_relation hrefl htrans (fun u c => ?_) _ t
    rw [drawColumn_eq]
    split
    · exact hrefl u
    · exact drawPixel_relation hrefl htrans hdraw hwrite ..
  · exact hrefl t

end

/-- From `s` to `t` the pixel is left alone or takes one shade on its three channels (R125). -/
def PixelKeptOrShaded (s t : State) (x y : Byte) : Prop :=
  (∀ ch : BitVec 2, t.fbAt x y ch = s.fbAt x y ch) ∨
    ∃ v : Byte, v.toNat < 4 ∧ ∀ ch : BitVec 2, ch.toNat < 3 → t.fbAt x y ch = some v

theorem PixelKeptOrShaded.trans {s t u : State} {x y : Byte} (h : PixelKeptOrShaded s t x y)
    (h' : PixelKeptOrShaded t u x y) : PixelKeptOrShaded s u x y := by
  rcases h' with hkept | hshaded
  · simpa [PixelKeptOrShaded, hkept] using h
  · exact .inr hshaded

/-- Any monochrome mode stays, and in it every pixel is kept or shaded: what each part of SC.RENDER does. -/
def ShadesInMonochrome (s t : State) : Prop :=
  t.cgb = s.cgb ∧ (s.cgb = false → ∀ x y, PixelKeptOrShaded s t x y)

theorem ShadesInMonochrome.of_fbAt_eq {s t : State} (hcgb : t.cgb = s.cgb) (h : ∀ x y ch, t.fbAt x y ch = s.fbAt x y ch) :
    ShadesInMonochrome s t :=
  ⟨hcgb, fun _ x y => .inl (h x y)⟩

theorem ShadesInMonochrome.trans {s t u : State} (h : ShadesInMonochrome s t) (h' : ShadesInMonochrome t u) :
    ShadesInMonochrome s u := by
  obtain ⟨hst, hpst⟩ := h
  obtain ⟨htu, hptu⟩ := h'
  exact ⟨htu.trans hst, fun hs x y => (hpst hs x y).trans (hptu (hst.trans hs) x y)⟩

/-- Every channel of a shade on three channels is the shade. -/
theorem shadeChannels_get (shade ch : BitVec 2) : (shadeChannels shade).get ch = shade.setWidth 8 := by
  simp [shadeChannels, Channels.get]

/-- The three writes of one shade shade their pixel, if it is on the frame, and keep every other (R125, R195, R220). -/
theorem pixelKeptOrShaded_writePixel (s : State) (x ly : Byte) (shade : BitVec 2) (x' y' : Byte) :
    PixelKeptOrShaded s (s.writePixel x ly (shadeChannels shade)) x' y' := by
  simp only [PixelKeptOrShaded, fbAt_writePixel, shadeChannels_get, onFrame_eq_true]
  by_cases hpixel : x' = x ∧ y' = ly ∧ x.toNat < s.params.screenW ∧ ly.toNat < s.params.screenH
  · obtain ⟨hx, hy, hw, hh⟩ := hpixel
    refine .inr ⟨shade.setWidth 8, ?_, fun ch hch => if_pos ⟨hx, hy, hw, hh, hch⟩⟩
    have := shade.isLt
    rw [BitVec.toNat_setWidth]
    omega
  · exact .inl fun ch => if_neg fun ⟨hx, hy, hw, hh, _⟩ => hpixel ⟨hx, hy, hw, hh⟩

/-- In monochrome mode a shown sprite pixel has one shade on three channels (R193). -/
theorem pixelChannels_monochrome {s : State} (h : s.cgb = false) (attr : Byte) (ci : BitVec 2) :
    s.pixelChannels attr ci = shadeChannels (s.resolveShade (attrPalsel attr) ci) := by
  simp [State.pixelChannels, h]

theorem shadesInMonochrome_writePixel (s : State) (ly x attr : Byte) (ci : BitVec 2) :
    ShadesInMonochrome s (s.writePixel x ly (s.pixelChannels attr ci)) := by
  obtain ⟨-, hmode, -⟩ := (SameButFrame.writePixel s x ly (s.pixelChannels attr ci)).fields
  refine ⟨by rw [State.cgb, hmode, State.cgb], fun hs => ?_⟩
  rw [pixelChannels_monochrome hs]
  exact pixelKeptOrShaded_writePixel s x ly _

/-- SC.RENDER shades in monochrome mode, one pixel's writes after the other (R197). -/
theorem shadesInMonochrome_renderSprites (s : State) (ly : Byte) (tall : Bool) :
    ShadesInMonochrome s (s.renderSprites ly tall) :=
  renderSprites_relation (R := ShadesInMonochrome) (fun _ => .of_fbAt_eq rfl fun _ _ _ => rfl) .trans
    (fun _ => .of_fbAt_eq rfl fun _ _ _ => rfl) (fun s => shadesInMonochrome_writePixel s ly) s tall

/-- Settles O53: the sprite pass keeps or shades every pixel, and the result word is no part of the frame. -/
theorem monochromePixelsHaveEqualChannels : Obligations.MonochromePixelsHaveEqualChannels := by
  intro s ly tall hs
  obtain ⟨-, hpixels⟩ := shadesInMonochrome_renderSprites s ly tall
  rw [exec_scRender]
  generalize s.renderSprites ly tall = u at hpixels
  exact ⟨_, rfl, hpixels hs⟩

end Sys2Proof.Machine
end

section
/-! PROOFS of the family 42_tile_decoder.md: the row offset, the two bytes of a tile row and the pixel's index as numbers (R141,
R142, R146), the faults of reserved operands (R143, R144), and the flips (R148). -/

namespace Sys2Proof.Machine

/-! ## TILE.ROWSEL -/

/-- The statements' height of a sprite is the model's (R184). -/
theorem height_eq_spriteHeight (tall : Bool) : Spec.height tall = spriteHeight tall := rfl

/-- TILE.ROWSEL with a row inside the sprite answers the row's offset (R141). -/
theorem exec_tileRowsel_of_lt {row : BitVec 4} {tall : Bool} (h : row.toNat < spriteHeight tall) (yflip : Bool) (s : State) :
    exec (.tileRowsel row tall yflip) s =
      .next (s.setRes (BitVec.ofNat 32 (2 * (if yflip then spriteHeight tall - 1 - row.toNat else row.toNat)))) := by
  rw [exec, execTileRowsel, if_neg (Nat.not_le.2 h), ← rowOffset_toNat row tall yflip h, BitVec.ofNat_toNat]

/-- Settles O32: a row inside the sprite gives its offset, and one past it is ill-formed. -/
theorem rowSelectionMirrorsAndDoubles : Obligations.RowSelectionMirrorsAndDoubles := by
  intro s
  simp only [height_eq_spriteHeight]
  refine ⟨fun row tall yflip => ⟨fun hin => exec_tileRowsel_of_lt hin yflip s, fun hpast hf => ?_⟩, renderKeepsFault s⟩
  have hill : (Instr.tileRowsel row tall yflip).wellFormed = false :=
    Bool.eq_false_iff.2 fun hlegal => absurd (tileRowselLegal_eq_true.1 hlegal) (Nat.not_lt.2 hpast)
  rw [exec_of_not_wellFormed hill, raiseFault_illegalOp hf]

/-! ## TILE.FETCH -/

/-- An even offset has bit 0 clear, which is what TILE.FETCH tests (R144). -/
theorem not_getLsbD_zero_of_even {off : BitVec 5} (h : off.toNat % 2 = 0) : ¬ off.getLsbD 0 = true := by
  simp [BitVec.getLsbD, Nat.testBit_zero, h]

/-- TILE.FETCH of an even offset in a bank that monochrome mode lacks raises BAD_BANK (R143). -/
theorem exec_tileFetch_of_badBank {s : State} (hcgb : s.cgb = false) (tile : Byte) {off : BitVec 5} (heven : off.toNat % 2 = 0) :
    exec (.tileFetch tile true off) s = .next (raiseFault .badBank s) := by
  rw [exec, execTileFetch, if_neg (not_getLsbD_zero_of_even heven), hcgb]
  rfl

/-- TILE.FETCH of an even offset in a bank the mode has answers the two bytes of the row (R142). -/
theorem exec_tileFetch_of_bank {s : State} {bank : Bool} (hbank : bank = true → s.cgb = true) (tile : Byte) {off : BitVec 5}
    (heven : off.toNat % 2 = 0) : exec (.tileFetch tile bank off) s =
      .next (s.setRes (((s.fetchRow tile bank off).2 ++ (s.fetchRow tile bank off).1 : BitVec 16).setWidth 32)) := by
  have hgood : ¬ (bank && !s.cgb) = true := by simpa using hbank
  rw [exec, execTileFetch, if_neg (not_getLsbD_zero_of_even heven), if_neg hgood]

/-- With legal parameters the row of an even offset is read at the unbounded sum of R142 and the address after it (R54). -/
theorem fetchRow_eq {s : State} (hw : s.params.wf = true) (tile : Byte) (bank : Bool) {off : BitVec 5} (heven : off.toNat % 2 = 0) :
    s.fetchRow tile bank off =
      (memRead (if bank then s.vram1 else s.vram0) (s.params.tileDataBase.toNat + 16 * tile.toNat + off.toNat),
        memRead (if bank then s.vram1 else s.vram0) (s.params.tileDataBase.toNat + 16 * tile.toNat + off.toNat + 1)) := by
  obtain ⟨hfirst, hsecond⟩ := tileAddress_toNat hw tile off heven
  simp only [State.fetchRow, State.vramByte, hfirst, hsecond]

/-- A word of two bytes as a number. -/
theorem setWidth_append_bytes (hi lo : Byte) : (hi ++ lo : BitVec 16).setWidth 32 = BitVec.ofNat 32 (lo.toNat + 256 * hi.toNat) := by
  rw [← BitVec.ofNat_toNat, toNat_append_eq_add, Nat.add_comm]
  rfl

/-- Settles O33: the tests in the order of R266, odd offset, then bank, then the two reads. -/
theorem fetchReadsTheRowsTwoBytes : Obligations.FetchReadsTheRowsTwoBytes := by
  intro s
  refine ⟨fun tile bank off => ⟨fun hodd hf => ?_, fun heven hbank hcgb hf => ?_, fun heven hbank hw => ?_⟩, renderKeepsFault s⟩
  · have hill : (Instr.tileFetch tile bank off).wellFormed = false := tileFetchLegal_eq_false.2 hodd
    rw [exec_of_not_wellFormed hill, raiseFault_illegalOp hf]
  · rw [hbank, exec_tileFetch_of_badBank hcgb tile heven, raiseFault_of_not_halted _ hf, FaultCode.bits]
  · rw [exec_tileFetch_of_bank hbank tile heven, fetchRow_eq hw tile bank heven, setWidth_append_bytes, State.setRes]

/-! ## TILE.PIXEL -/

/-- Settles O34: the answer is the colour index, here as a number. -/
theorem pixelPairsTheTwoPlanes : Obligations.PixelPairsTheTwoPlanes := by
  intro s b0 b1 c xflip
  rw [exec, execTilePixel, ← BitVec.ofNat_toNat, pixelIndex_toNat, State.setRes]

/-! ## Flips -/

/-- Settles O35: the answers depend on the effective row and column alone, and mirroring twice gives back both. -/
theorem flipUndoesMirror : Obligations.FlipUndoesMirror := by
  intro s
  constructor
  · intro row mirrored tall hrow hmirrored
    rw [height_eq_spriteHeight] at hrow hmirrored
    have hback : spriteHeight tall - 1 - mirrored.toNat = row.toNat := by omega
    rw [exec_tileRowsel_of_lt (by omega : mirrored.toNat < spriteHeight tall), exec_tileRowsel_of_lt hrow, if_pos rfl, hback]
    rfl
  · intro b0 b1 c mirrored hmirrored
    rw [pixelPairsTheTwoPlanes, pixelPairsTheTwoPlanes, if_pos rfl, hmirrored]
    rfl

end Sys2Proof.Machine
end

section
/-! PROOFS of the family 43_priority_buffer.md: opening and closing invalidate every entry (R161, R166), a write stores one entry or
nothing (R162, R163), and a read returns the live entry or free bits (R164, R165). -/

namespace Sys2Proof.Machine

/-! ## Invalid entries -/

@[simp] theorem invalidEntries_length (pb : List PbEntry) : (invalidEntries pb).length = pb.length :=
  List.length_map _

/-- An entry made invalid keeps its bits (R161, R166). -/
theorem invalidEntries_getElem?_of_getElem? {pb : List PbEntry} {x : Nat} {e : PbEntry} (h : pb[x]? = some e) :
    (invalidEntries pb)[x]? = some ⟨false, e.ci, e.prio⟩ := by
  rw [invalidEntries, List.getElem?_map, h, Option.map_some]

theorem invalidEntries_eq_self {pb : List PbEntry} (h : ∀ e ∈ pb, e.valid = false) : invalidEntries pb = pb :=
  (List.map_congr_left fun e he => by rw [← h e he]; rfl).trans (List.map_id pb)

/-! ## PB.BEGIN and PB.DISCARD -/

/-- PB.BEGIN is its effect and the result 0 (R161). -/
theorem exec_pbBegin (s : State) (ly : Byte) : exec (.pbBegin ly) s = .next ((s.beginPb ly).setRes 0#32) := rfl

/-- Settles O36: the state after is `beginPb` with the result 0, whose entries are the old ones made invalid. -/
theorem beginOpensAndInvalidates : Obligations.BeginOpensAndInvalidates := by
  intro s ly
  exact ⟨_, exec_pbBegin s ly, rfl, rfl, invalidEntries_length s.pb,
    fun _ _ he => invalidEntries_getElem?_of_getElem? he, rfl⟩

/-- A closed buffer without a live entry has nothing to discard (R166). -/
theorem discardPb_eq_self {s : State} (ho : s.pbOpen = false) (hv : ∀ e ∈ s.pb, e.valid = false) : s.discardPb = s := by
  rw [State.discardPb, invalidEntries_eq_self hv, ← ho]

/-- PB.DISCARD is its effect and the result 0 (R166). -/
theorem exec_pbDiscard (s : State) : exec .pbDiscard s = .next (s.discardPb.setRes 0#32) := rfl

/-- Settles O41: the state after is `discardPb` with the result 0, which of an idle buffer is the state before. -/
theorem discardClosesAndInvalidates : Obligations.DiscardClosesAndInvalidates := by
  intro s
  refine ⟨⟨_, exec_pbDiscard s, rfl, invalidEntries_length s.pb, fun _ _ he => invalidEntries_getElem?_of_getElem? he, rfl⟩,
    fun ho hv => ?_⟩
  rw [exec_pbDiscard, discardPb_eq_self ho hv, State.setRes]

/-! ## PB.WRITE -/

/-- PB.WRITE is its effect and the result 0 (R162). -/
theorem exec_pbWrite (s : State) (x : Byte) (ci : BitVec 2) (prio : Bool) :
    exec (.pbWrite x ci prio) s = .next ((s.writePb x ci prio).setRes 0#32) := rfl

/-- A write to the Priority Buffer changes its entries at most. -/
theorem writePb_eq_set_pb (s : State) (x : Byte) (ci : BitVec 2) (prio : Bool) :
    s.writePb x ci prio = { s with pb := (s.writePb x ci prio).pb } := by
  unfold State.writePb
  split <;> rfl

/-- The entry written, in an open buffer and on the frame (R162). -/
theorem writePb_getElem?_same {s : State} {x : Byte} (ho : s.pbOpen = true) (hx : x.toNat < s.params.screenW)
    (hl : s.pb.length = s.params.screenW) (ci : BitVec 2) (prio : Bool) :
    (s.writePb x ci prio).pb[x.toNat]? = some ⟨true, ci, prio⟩ := by
  rw [State.writePb, if_pos ⟨ho, hx⟩, List.getElem?_set_self (hl ▸ hx)]

/-- Every other entry stays, whether the write is stored or dropped (R162, R163). -/
theorem writePb_getElem?_other (s : State) {x : Byte} {n : Nat} (h : n ≠ x.toNat) (ci : BitVec 2) (prio : Bool) :
    (s.writePb x ci prio).pb[n]? = s.pb[n]? := by
  unfold State.writePb
  split
  · exact List.getElem?_set_ne h.symm
  · rfl

/-- A write while closed or off the frame is dropped (R163). -/
theorem writePb_eq_self {s : State} {x : Byte} (h : s.pbOpen = false ∨ s.params.screenW ≤ x.toNat) (ci : BitVec 2) (prio : Bool) :
    s.writePb x ci prio = s := by
  have hdrop : ¬ (s.pbOpen = true ∧ x.toNat < s.params.screenW) := by
    rintro ⟨ho, hx⟩
    rcases h with hclosed | hoff
    · simp [hclosed] at ho
    · omega
  rw [State.writePb, if_neg hdrop]

/-- Settles O37: the state after is `writePb` with the result 0, which stores one entry or is the state before. -/
theorem pbWriteStoresEntryOrNothing : Obligations.PbWriteStoresEntryOrNothing := by
  intro s x ci prio
  constructor
  · intro ho hx hl
    exact ⟨_, exec_pbWrite s x ci prio, writePb_getElem?_same ho hx hl ci prio, fun _ hn => writePb_getElem?_other s hn ci prio,
      congrArg (·.setRes 0#32) (writePb_eq_set_pb s x ci prio)⟩
  · intro hdrop
    rw [exec_pbWrite, writePb_eq_self hdrop, State.setRes]

/-! ## PB.READ -/

/-- The bits of an entry in a result word, as a number (R164). -/
theorem entryWord_eq (ci : BitVec 2) (prio : Bool) :
    (BitVec.ofBool prio ++ ci : BitVec 3).setWidth 32 = BitVec.ofNat 32 (ci.toNat + 4 * prio.toNat) := by
  rw [← BitVec.ofNat_toNat, toNat_append_eq_add, BitVec.toNat_ofBool, Nat.add_comm]
  rfl

/-- PB.READ of a live entry answers its bits and leaves the state alone (R164). -/
theorem exec_pbRead_live {s : State} {x ly : Byte} {e : PbEntry} (h : s.pbEntryAt x ly = some e) :
    exec (.pbRead x ly) s = .next (s.setRes (BitVec.ofNat 32 (e.ci.toNat + 4 * e.prio.toNat))) := by
  rw [exec_pbRead, readPb_live h, entryWord_eq]

/-- The two parts of three bits, put together again. -/
theorem ofBool_append_extractLsb' (v : BitVec 3) : (BitVec.ofBool (v.getLsbD 2) ++ v.extractLsb' 0 2 : BitVec 3) = v := by
  revert v
  decide

/-- PB.READ of an entry that does not exist answers a free value and counts it (R165). -/
theorem exec_pbRead_missing {s : State} {x ly : Byte} (h : s.pbEntryAt x ly = none) :
    exec (.pbRead x ly) s = .next (s.drawFree.setRes (BitVec.ofNat 32 (Config.freePbEntry s.freeCount).toNat)) := by
  rw [exec_pbRead, readPb_missing h, ofBool_append_extractLsb', BitVec.ofNat_toNat]

/-- A query finds no entry in a closed buffer, of another scanline, off the frame, or where none has been written (R164). -/
theorem pbEntryAt_eq_none {s : State} {x ly : Byte} (h : s.pbOpen = false ∨ ly ≠ s.pbLy ∨ s.params.screenW ≤ x.toNat ∨
    ∀ e, s.pb[x.toNat]? = some e → e.valid = false) : s.pbEntryAt x ly = none := by
  rw [Option.eq_none_iff_forall_ne_some]
  intro e he
  obtain ⟨ho, hly, hx, hentry, hvalid⟩ := pbEntryAt_eq_some.1 he
  rcases h with hclosed | hother | hoff | hinvalid
  · simp [hclosed] at ho
  · exact hother hly
  · omega
  · simp [hinvalid e hentry] at hvalid

/-- Settles O39: the query finds the live entry, or none in each of the four other cases. -/
theorem pbReadReturnsLiveEntryOrAnyBits : Obligations.PbReadReturnsLiveEntryOrAnyBits := by
  intro s x ly
  constructor
  · intro ci prio ho hly hx hentry
    exact exec_pbRead_live (pbEntryAt_eq_some.2 ⟨ho, hly, hx, hentry, rfl⟩)
  · intro hmissing
    exact ⟨_, _, exec_pbRead_missing (pbEntryAt_eq_none hmissing), rfl⟩

/-- Settles O40: the first write makes the entry live, and the second, to another column, leaves it and the tag alone. -/
theorem pbReadReturnsWhatPbWriteStored : Obligations.PbReadReturnsWhatPbWriteStored := by
  intro s x y ci ci' prio prio' ho hx hl hy
  let t := (s.writePb x ci prio).setRes 0#32
  let u := (t.writePb y ci' prio').setRes 0#32
  have hentry : u.pb[x.toNat]? = some ⟨true, ci, prio⟩ :=
    (writePb_getElem?_other t (BitVec.toNat_ne.1 hy.symm) ci' prio').trans (writePb_getElem?_same ho hx hl ci prio)
  have hlive : u.pbEntryAt x s.pbLy = some ⟨true, ci, prio⟩ :=
    pbEntryAt_eq_some.2 ⟨by simp [u, t, ho], by simp [u, t], by simpa [u, t] using hx, hentry, rfl⟩
  exact ⟨t, u, _, exec_pbWrite .., exec_pbWrite .., exec_pbRead_live hlive, rfl⟩

end Sys2Proof.Machine
end

section
/-! PROOFS of the family 44_sprite_compositor.md, the pixels: SC.RENDER is the drawing, one after the other, of the pixels its visible
sprites have on the scanline, a list that depends on MODE.CGB, OAM, VRAM and the parameters alone (R182 to R190). So it does nothing
where the list is empty (R184, R203), and does not see what neither the list nor the work for a pixel reads (R185, R187, R191,
R192). -/

namespace Sys2Proof.Machine

/-! ## The pixels of a scanline -/

/-- A sprite's pixel as SC.RENDER draws it: its sprite's flags (R82), its screen column and its colour index. -/
structure SpritePixel where
  attr : Byte
  x : Byte
  ci : BitVec 2

/-- The colour index of column `c` of sprite `i` (R188, R189). -/
def State.columnIndex (s : State) (ly : Byte) (tall : Bool) (i : Nat) (c : BitVec 3) : BitVec 2 :=
  pixelIndex (s.vramByte (s.spriteRowAt ly tall i).1 (s.spriteRowAt ly tall i).2)
    (s.vramByte (s.spriteRowAt ly tall i).1 ((s.spriteRowAt ly tall i).2 + 1#16)) c (attrXflip (s.oamByte (4 * i + 3)))

/-- The pixel in column `c` of sprite `i`, unless it is transparent (R190). -/
def State.columnPixel (s : State) (ly : Byte) (tall : Bool) (i : Nat) (c : BitVec 3) : Option SpritePixel :=
  if s.columnIndex ly tall i c = 0#2 then none
  else some ⟨s.oamByte (4 * i + 3), pixelColumn (spriteLeft (s.oamByte (4 * i + 1))) c, s.columnIndex ly tall i c⟩

/-- The non-transparent pixels sprite `i` has on the scanline, in the order of R189. -/
def State.spritePixels (s : State) (ly : Byte) (tall : Bool) (i : Nat) : List SpritePixel :=
  if s.spriteOnLine ly tall i then columnOrder.filterMap (s.columnPixel ly tall i) else []

/-- The pixels SC.RENDER draws, in its order (R181, R189). -/
def State.linePixels (s : State) (ly : Byte) (tall : Bool) : List SpritePixel :=
  spriteOrder.flatMap (s.spritePixels ly tall)

/-- The work for one pixel (R191 to R195). -/
def State.putPixel (ly : Byte) (s : State) (p : SpritePixel) : State := s.drawPixel p.attr ly p.x p.ci

theorem SameButFrame.putPixel (ly : Byte) (s : State) (p : SpritePixel) : SameButFrame s (s.putPixel ly p) :=
  .drawPixel ..

theorem mem_spriteOrder {i : Nat} : i ∈ spriteOrder ↔ i < 40 := by
  simp [spriteOrder, Config.oamEntries]

/-- A state that differs at most in the frame buffer and the count of free values is one with these two replaced. -/
theorem sameButFrame_iff {s t : State} : SameButFrame s t ↔ ∃ fb n, t = { s with fb := fb, freeCount := n } :=
  ⟨fun h => ⟨_, _, h⟩, by rintro ⟨fb, n, rfl⟩; rfl⟩

/-- The pixels of a sprite are read from the parameters, the mode and the memories alone. -/
theorem SameButFrame.spritePixels {s t : State} (h : SameButFrame s t) (ly : Byte) (tall : Bool) (i : Nat) :
    t.spritePixels ly tall i = s.spritePixels ly tall i := by
  obtain ⟨fb, n, rfl⟩ := sameButFrame_iff.1 h
  rfl

theorem SameButFrame.linePixels {s t : State} (h : SameButFrame s t) (ly : Byte) (tall : Bool) :
    t.linePixels ly tall = s.linePixels ly tall :=
  List.flatMap_congr fun i _ => h.spritePixels ly tall i

/-- All the work for a sprite is the work for its pixels. -/
theorem drawSprite_eq_foldl_putPixel (ly : Byte) (tall : Bool) (s : State) (i : Nat) :
    s.drawSprite ly tall i = (s.spritePixels ly tall i).foldl (State.putPixel ly) s := by
  rw [drawSprite_eq, State.spritePixels]
  split
  · rw [List.foldl_filterMap]
    refine List.foldl_ext _ _ s fun t c _ => ?_
    rw [drawColumn_eq, State.columnPixel, State.columnIndex]
    split <;> rfl
  · rfl

/-- The sprite pass is the work for the pixels of the scanline. -/
theorem renderSprites_eq_foldl_putPixel (s : State) (ly : Byte) (tall : Bool) :
    s.renderSprites ly tall = (s.linePixels ly tall).foldl (State.putPixel ly) s := by
  rw [renderSprites_fold, State.linePixels, List.foldl_flatMap]
  refine (List.foldl_rel (r := fun t u => t = u ∧ SameButFrame s t) ⟨rfl, .refl s⟩ ?_).1
  rintro i - t u ⟨rfl, ht⟩
  rw [drawSprite_eq_foldl_putPixel, ht.spritePixels]
  exact ⟨rfl, foldl_invariant _ (fun u p _ hu => hu.trans (.putPixel ly u p)) t ht⟩

/-! ## Nothing to draw -/

/-- Without a pixel to draw SC.RENDER only answers. -/
theorem exec_scRender_of_no_pixels {s : State} {ly : Byte} {tall : Bool} (h : ∀ i, i < 40 → s.spritePixels ly tall i = []) :
    exec (.scRender ly tall) s = .next { s with res := 0#32 } := by
  have hnone : s.linePixels ly tall = [] := List.flatMap_eq_nil_iff.2 fun i hi => h i (mem_spriteOrder.1 hi)
  rw [exec_scRender, renderSprites_eq_foldl_putPixel, hnone]
  rfl

/-- The screen row of a sprite's top as a number (R183). -/
theorem spriteTop_toNat (oy : Byte) : (spriteTop oy).toNat = (oy.toNat + 240) % 256 := by
  simp only [spriteTop, BitVec.toNat_sub, BitVec.toNat_ofNat]
  omega

/-- The model's visibility test is the statements' (R184). -/
theorem spriteOnLine_iff {s : State} {ly : Byte} {tall : Bool} {i : Nat} :
    s.spriteOnLine ly tall i = true ↔ Spec.visibleOn s ly tall i := by
  simp [State.spriteOnLine, spriteVisible, spriteTop_toNat, Spec.visibleOn, Spec.top, height_eq_spriteHeight]

theorem spritePixels_of_not_visible {s : State} {ly : Byte} {tall : Bool} {i : Nat} (h : ¬ Spec.visibleOn s ly tall i) :
    s.spritePixels ly tall i = [] :=
  if_neg (mt spriteOnLine_iff.1 h)

/-- Settles O47: a sprite off the scanline has no pixel there. -/
theorem invisibleSpritesContributeNothing : Obligations.InvisibleSpritesContributeNothing :=
  fun _ _ _ h => exec_scRender_of_no_pixels fun i hi => spritePixels_of_not_visible (h i hi)

/-- The offset of a sprite's row is even and lies in its tile, or in its two tiles (R141, R184). -/
theorem spriteOffset_even_and_le {s : State} {ly : Byte} {tall : Bool} {i : Nat} (h : s.spriteOnLine ly tall i = true) (yflip : Bool) :
    (rowOffset (spriteRow (spriteTop (s.oamByte (4 * i))) ly) tall yflip).toNat % 2 = 0 ∧
    (rowOffset (spriteRow (spriteTop (s.oamByte (4 * i))) ly) tall yflip).toNat + 2 ≤ 2 * spriteHeight tall := by
  obtain ⟨hrow, hlt⟩ := spriteRow_toNat h
  rw [rowOffset_toNat _ _ _ (by rwa [hrow]), hrow]
  split <;> omega

/-- Both bytes of a tile row that a sprite on the scanline selects lie in the 4096 bytes of the tiles (R54). -/
theorem spriteRowAt_mem_tiles {s : State} (hw : s.params.wf = true) {ly : Byte} {tall : Bool} {i : Nat}
    (h : s.spriteOnLine ly tall i = true) :
    s.params.tileDataBase.toNat ≤ (s.spriteRowAt ly tall i).2.toNat ∧
    (s.spriteRowAt ly tall i).2.toNat + 1 ≤ s.params.tileDataBase.toNat + 4095 ∧
    ((s.spriteRowAt ly tall i).2 + 1#16).toNat = (s.spriteRowAt ly tall i).2.toNat + 1 := by
  obtain ⟨heven, hle⟩ := spriteOffset_even_and_le h (attrYflip (s.oamByte (4 * i + 3)))
  obtain ⟨hfirst, hsecond⟩ := tileAddress_toNat hw (spriteTile tall (s.oamByte (4 * i + 2))) _ heven
  have htile : 16 * (spriteTile tall (s.oamByte (4 * i + 2))).toNat + 2 * spriteHeight tall ≤ 4096 := by
    have hbyte := (s.oamByte (4 * i + 2)).isLt
    rw [spriteTile_toNat]
    cases tall <;> simp only [spriteHeight, Bool.false_eq_true, if_true, if_false] <;> omega
  rw [State.spriteRowAt, hsecond, hfirst]
  omega

/-- Two zero bytes hold only transparent pixels (R190). -/
theorem pixelIndex_zero (c : BitVec 3) (xflip : Bool) : pixelIndex 0#8 0#8 c xflip = 0#2 := by
  simp [pixelIndex]

/-- Settles O48: both bytes of every row a visible sprite selects are 0, so each of its pixels is transparent. -/
theorem transparentTilesDrawNothing : Obligations.TransparentTilesDrawNothing := by
  intro s ly tall hw hzero
  have hbyte (bank : Bool) (a : BitVec 16) (hlo : s.params.tileDataBase.toNat ≤ a.toNat)
      (hhi : a.toNat ≤ s.params.tileDataBase.toNat + 4095) : s.vramByte bank a = 0#8 := by
    obtain ⟨hbank0, hbank1⟩ := hzero a.toNat hlo hhi
    cases bank
    · exact hbank0
    · exact hbank1
  refine exec_scRender_of_no_pixels fun i _ => ?_
  unfold State.spritePixels
  split
  · obtain ⟨hlo, hhi, hnext⟩ := spriteRowAt_mem_tiles hw ‹_›
    refine List.filterMap_eq_nil_iff.2 fun c _ => if_pos ?_
    rw [State.columnIndex, hbyte _ _ hlo (by omega), hbyte _ _ (by omega) (by omega), pixelIndex_zero]
  · rfl

/-! ## What the pass does not see -/

/-- The pixels of a scanline depend on the parameters, on the bytes of OAM, of a tall sprite's tile index all but the low bit (R185),
and on the VRAM bytes in the bank that a sprite selects (R187). -/
theorem linePixels_congr {s t : State} {ly : Byte} {tall : Bool} (hparams : t.params = s.params)
    (hoam : ∀ i, i < 40 → t.oamByte (4 * i) = s.oamByte (4 * i) ∧ t.oamByte (4 * i + 1) = s.oamByte (4 * i + 1) ∧
      spriteTile tall (t.oamByte (4 * i + 2)) = spriteTile tall (s.oamByte (4 * i + 2)) ∧
      t.oamByte (4 * i + 3) = s.oamByte (4 * i + 3))
    (hvram : ∀ (b : Bool) (a : BitVec 16), t.vramByte (t.bankOf b) a = s.vramByte (s.bankOf b) a) :
    t.linePixels ly tall = s.linePixels ly tall := by
  refine List.flatMap_congr fun i hi => ?_
  obtain ⟨hy, hx, htile, hattr⟩ := hoam i (mem_spriteOrder.1 hi)
  have hindex (c : BitVec 3) : t.columnIndex ly tall i c = s.columnIndex ly tall i c := by
    simp only [State.columnIndex, State.spriteRowAt, hvram, hparams, hy, htile, hattr]
  have hpixel : t.columnPixel ly tall i = s.columnPixel ly tall i := by
    funext c
    rw [State.columnPixel, State.columnPixel, hindex, hx, hattr]
  rw [State.spritePixels, State.spritePixels, State.spriteOnLine, State.spriteOnLine, hpixel, hy]

/-- SC.RENDER from `s` does not see the change of state `g`: the scanline has the same pixels, and the tests, the colours and the
writes of R191 to R195 take no notice of it. -/
structure State.Unseen (s : State) (ly : Byte) (tall : Bool) (g : State → State) : Prop where
  pixels : (g s).linePixels ly tall = s.linePixels ly tall
  shown : ∀ t attr x, SameButFrame s t →
    (g t).pixelShown attr ly x = ((t.pixelShown attr ly x).1, g (t.pixelShown attr ly x).2)
  colour : ∀ t attr ci, SameButFrame s t → (g t).pixelChannels attr ci = t.pixelChannels attr ci
  write : ∀ t x ch v, (g t).writeFb x ly ch v = g (t.writeFb x ly ch v)

/-- The work for a pixel commutes with an unseen change. -/
theorem State.Unseen.putPixel {s : State} {ly : Byte} {tall : Bool} {g : State → State} (h : s.Unseen ly tall g) {t : State}
    (ht : SameButFrame s t) (p : SpritePixel) : (g t).putPixel ly p = g (t.putPixel ly p) := by
  simp only [State.putPixel, drawPixel_eq, h.shown t p.attr p.x ht]
  split
  · rw [h.colour _ _ _ (ht.trans (.pixelShown ..))]
    simp only [State.writePixel, h.write]
  · rfl

/-- The sprite pass commutes with an unseen change. -/
theorem State.Unseen.renderSprites {s : State} {ly : Byte} {tall : Bool} {g : State → State} (h : s.Unseen ly tall g) :
    (g s).renderSprites ly tall = g (s.renderSprites ly tall) := by
  rw [renderSprites_eq_foldl_putPixel, renderSprites_eq_foldl_putPixel, h.pixels]
  generalize s.linePixels ly tall = pixels
  exact foldl_commute (P := SameButFrame s) (fun t p ht => ht.trans (.putPixel ly t p)) (fun t p ht => h.putPixel ht p) pixels s
    (.refl s)

/-- SC.RENDER commutes with an unseen change that lets the result word alone. -/
theorem State.Unseen.exec_scRender {s : State} {ly : Byte} {tall : Bool} {g : State → State} (h : s.Unseen ly tall g)
    (hres : ∀ t v, (g t).setRes v = g (t.setRes v)) :
    ∃ t, exec (.scRender ly tall) s = .next t ∧ exec (.scRender ly tall) (g s) = .next (g t) := by
  refine ⟨_, Machine.exec_scRender s ly tall, ?_⟩
  rw [Machine.exec_scRender, h.renderSprites, hres]

/-- The override is colour mode with BGPRI clear (R191). -/
theorem override_eq_true {s : State} : s.override = true ↔ s.mode.getLsbD 0 = true ∧ s.mode.getLsbD 1 = false := by
  rw [State.override, State.cgb, State.bgpri, Bool.and_eq_true, Bool.not_eq_true']

/-- The shown test asks the override, then the entry at the pixel (R191, R192). -/
theorem pixelShown_eq (s : State) (attr ly x : Byte) :
    s.pixelShown attr ly x =
      if s.override then (true, s)
      else (pixelShownOver s.cgb (attrPrio attr) (s.readPb x ly).1.1 (s.readPb x ly).1.2, (s.readPb x ly).2) := rfl

/-- The shown test does not see a change of state after which MODE, the entry at the pixel and the free values to come are the same. -/
theorem pixelShown_commute (g : State → State) {t : State} {x ly : Byte} (hmode : (g t).mode = t.mode)
    (hentry : (g t).pbEntryAt x ly = t.pbEntryAt x ly) (hcount : (g t).freeCount = t.freeCount)
    (hdraw : (g t).drawFree = g t.drawFree) (attr : Byte) :
    (g t).pixelShown attr ly x = ((t.pixelShown attr ly x).1, g (t.pixelShown attr ly x).2) := by
  have hread : (g t).readPb x ly = ((t.readPb x ly).1, g (t.readPb x ly).2) := by
    cases h : t.pbEntryAt x ly with
    | some e => rw [readPb_live h, readPb_live (hentry.trans h)]
    | none => rw [readPb_missing h, readPb_missing (hentry.trans h), hcount, hdraw]
  have hcgb : (g t).cgb = t.cgb := by rw [State.cgb, hmode, State.cgb]
  have hover : (g t).override = t.override := by rw [State.override, hcgb, State.bgpri, hmode, State.override, State.bgpri]
  rw [pixelShown_eq, pixelShown_eq, hread, hcgb, hover]
  cases t.override <;> rfl

/-- `s` with another frame buffer. -/
def State.setFb (m : Memory) (s : State) : State := { s with fb := m }

/-- A write to the frame buffer, taken or rejected, is a change of the frame buffer (R220, R221). -/
theorem writeFb_eq_setFb (s : State) (x y : Byte) (ch : BitVec 2) (v : Byte) :
    s.writeFb x y ch v = s.setFb (if onFrame s.params x y ch then putCell (fbKey x y ch) v s.fb else s.fb) := by
  unfold State.writeFb
  split <;> rfl

/-- A write to the frame buffer does not see a change of state that leaves the parameters and the frame buffer alone. -/
theorem writeFb_commute (g : State → State) {t : State} (hparams : (g t).params = t.params) (hfb : (g t).fb = t.fb)
    (hset : ∀ m, (g t).setFb m = g (t.setFb m)) (x y : Byte) (ch : BitVec 2) (v : Byte) :
    (g t).writeFb x y ch v = g (t.writeFb x y ch v) := by
  rw [writeFb_eq_setFb, writeFb_eq_setFb, hparams, hfb, hset]

/-- `s` with another OAM. -/
def State.setOam (m : Memory) (s : State) : State := { s with oam := m }

/-- `s` with another VRAM bank 1. -/
def State.setVram1 (m : Memory) (s : State) : State := { s with vram1 := m }

/-- `s` with all that a query of the Priority Buffer can find or draw replaced (R164, R165). -/
def State.setQueried (isOpen : Bool) (tag : Byte) (entries : List PbEntry) (n : Nat) (s : State) : State :=
  { s with pbOpen := isOpen, pbLy := tag, pb := entries, freeCount := n }

/-- A tall sprite's tile is fixed by all but the low bit of the index (R185). -/
theorem spriteTile_tall_congr {a b : Byte} (h : a.toNat / 2 = b.toNat / 2) : spriteTile true a = spriteTile true b := by
  apply BitVec.eq_of_toNat_eq
  rw [spriteTile_toNat, spriteTile_toNat, if_pos rfl, if_pos rfl]
  omega

/-- Settles O49: a change of tile indices in their low bits is unseen. -/
theorem tallTileParityIsIgnored : Obligations.TallTileParityIsIgnored := by
  intro s oam' ly hoam
  have hunseen : s.Unseen ly true (.setOam oam') := by
    refine ⟨linePixels_congr rfl (fun i hi => ?_) fun _ _ => rfl,
      fun _ attr _ _ => pixelShown_commute (.setOam oam') rfl rfl rfl rfl attr,
      fun _ _ _ _ => rfl, fun _ x => writeFb_commute (.setOam oam') rfl rfl (fun _ => rfl) x ly⟩
    obtain ⟨hy, hx, hattr, htile⟩ := hoam i hi
    exact ⟨hy, hx, spriteTile_tall_congr htile, hattr⟩
  exact hunseen.exec_scRender fun _ _ => rfl

/-- Settles O50: under the override a change of the Priority Buffer and of the count is unseen. -/
theorem overrideDoesNotReadPriorityBuffer : Obligations.OverrideDoesNotReadPriorityBuffer := by
  intro s ly tall isOpen tag entries n hcgb hbgpri
  have hunseen : s.Unseen ly tall (.setQueried isOpen tag entries n) := by
    refine ⟨linePixels_congr rfl (fun _ _ => ⟨rfl, rfl, rfl, rfl⟩) fun _ _ => rfl, fun t attr x ht => ?_,
      fun _ _ _ _ => rfl, fun _ x => writeFb_commute (.setQueried isOpen tag entries n) rfl rfl (fun _ => rfl) x ly⟩
    have hover : t.override = true := by
      obtain ⟨fb, m, rfl⟩ := sameButFrame_iff.1 ht
      exact override_eq_true.2 ⟨hcgb, hbgpri⟩
    rw [pixelShown_eq, pixelShown_eq, if_pos hover]
    exact if_pos hover
  exact hunseen.exec_scRender fun _ _ => rfl

/-- Monochrome mode selects bank 0 (R187). -/
theorem bankOf_monochrome {s : State} (h : s.cgb = false) (b : Bool) : s.bankOf b = false := by
  rw [State.bankOf, h, Bool.false_and]

/-- Settles O52: in monochrome mode bank 0 is selected, so a change of bank 1 is unseen. -/
theorem monochromeNeverReadsBankOne : Obligations.MonochromeNeverReadsBankOne := by
  intro s ly tall vram1' hcgb
  have hunseen : s.Unseen ly tall (.setVram1 vram1') := by
    refine ⟨linePixels_congr rfl (fun _ _ => ⟨rfl, rfl, rfl, rfl⟩) fun b a => ?_,
      fun _ attr _ _ => pixelShown_commute (.setVram1 vram1') rfl rfl rfl rfl attr,
      fun _ _ _ _ => rfl, fun _ x => writeFb_commute (.setVram1 vram1') rfl rfl (fun _ => rfl) x ly⟩
    rw [bankOf_monochrome hcgb, bankOf_monochrome (s := s.setVram1 vram1') hcgb]
    rfl
  exact hunseen.exec_scRender fun _ _ => rfl

/-- `s` with another MODE and other flags in the Priority Buffer's entries. -/
def State.reflagged (mode' : BitVec 2) (flag : PbEntry → Bool) (s : State) : State :=
  { s with mode := mode', pb := s.pb.map fun e => { e with prio := flag e } }

/-- A query finds the same entry with its other flag (R164). -/
theorem pbEntryAt_reflagged (s : State) (mode' : BitVec 2) (flag : PbEntry → Bool) (x ly : Byte) :
    (s.reflagged mode' flag).pbEntryAt x ly = (s.pbEntryAt x ly).map fun e => { e with prio := flag e } := by
  simp only [State.pbEntryAt, State.reflagged, List.getElem?_map]
  split
  · cases s.pb[x.toNat]? <;> simp [Option.filter, apply_ite (Option.map _)]
  · rfl

/-- In monochrome mode an entry's flag does not count (R192). -/
theorem pixelShownOver_monochrome (sprPrio : Bool) (bci : BitVec 2) (bprio : Bool) :
    pixelShownOver false sprPrio bci bprio = if sprPrio = true ∧ bci ≠ 0#2 then false else true := by
  simp [pixelShownOver]

/-- In monochrome mode a pixel is shown by the priority bit and the entry's colour index alone (R191, R192). -/
theorem pixelShown_monochrome {s : State} (h : s.cgb = false) (attr ly x : Byte) :
    s.pixelShown attr ly x = (if attrPrio attr = true ∧ (s.readPb x ly).1.1 ≠ 0#2 then false else true, (s.readPb x ly).2) := by
  rw [pixelShown_eq, State.override, h, pixelShownOver_monochrome]
  rfl

/-- Settles O51: in monochrome mode a change of BGPRI and of the entries' flags is unseen, also where an entry is missing:
both runs draw the same free values there (log 5). -/
theorem monochromeIgnoresPriorityFlags : Obligations.MonochromeIgnoresPriorityFlags := by
  intro s ly tall mode' flag _ hcgb hcgb'
  have hmode {t : State} (ht : SameButFrame s t) : t.cgb = false := by
    obtain ⟨-, hmode, -⟩ := ht.fields
    rwa [State.cgb, hmode]
  have hunseen : s.Unseen ly tall (State.reflagged mode' flag) := by
    constructor
    · refine linePixels_congr rfl (fun _ _ => ⟨rfl, rfl, rfl, rfl⟩) fun b a => ?_
      rw [bankOf_monochrome hcgb, bankOf_monochrome (s := s.reflagged mode' flag) hcgb']
      rfl
    · intro t attr x ht
      have hentry := pbEntryAt_reflagged t mode' flag x ly
      rw [pixelShown_monochrome (hmode ht), pixelShown_monochrome (s := t.reflagged mode' flag) hcgb']
      cases h : t.pbEntryAt x ly with
      | some e => rw [readPb_live h, readPb_live (hentry.trans (by rw [h]; rfl))]
      | none => rw [readPb_missing h, readPb_missing (hentry.trans (by rw [h]; rfl))]; rfl
    · intro t attr ci ht
      rw [pixelChannels_monochrome (hmode ht), pixelChannels_monochrome (s := t.reflagged mode' flag) hcgb']
      rfl
    · exact fun _ x => writeFb_commute (.reflagged mode' flag) rfl rfl (fun _ => rfl) x ly
  obtain ⟨t, ht, hu⟩ := hunseen.exec_scRender fun _ _ => rfl
  exact ⟨t, _, ht, hu, fun _ _ _ => rfl⟩

end Sys2Proof.Machine
end

section
/-! PROOFS of the family 44_sprite_compositor.md, the frame: SC.RENDER writes its row and reads none (R196, R200), a channel of the row
ends as the last pixel of the list that paints it has it, which is the lowest-indexed sprite's shown there (R197, R198), and a second
pass paints the same again (R202). -/

namespace Sys2Proof.Machine

/-! ## What the pass does to the frame -/

theorem SameButFrame.pixelChannels {s t : State} (h : SameButFrame s t) (attr : Byte) (ci : BitVec 2) :
    t.pixelChannels attr ci = s.pixelChannels attr ci := by
  obtain ⟨fb, n, rfl⟩ := sameButFrame_iff.1 h
  rfl

/-- A channel after the work for one pixel: the pixel's colour if the pixel is there and shown, else what it was (R192, R195). -/
theorem fbAt_putPixel (s : State) (ly : Byte) (p : SpritePixel) (x y : Byte) (ch : BitVec 2) :
    (s.putPixel ly p).fbAt x y ch =
      if (s.pixelShown p.attr ly p.x).1 = true ∧ x = p.x ∧ y = ly ∧ onFrame s.params x ly ch = true then
        some ((s.pixelChannels p.attr p.ci).get ch)
      else s.fbAt x y ch := by
  have hsame := SameButFrame.pixelShown s p.attr ly p.x
  obtain ⟨hparams, -⟩ := hsame.fields
  rw [State.putPixel, drawPixel_eq, hsame.pixelChannels]
  cases (s.pixelShown p.attr ly p.x).1
  · simp
  · simp only [if_true, true_and, fbAt_writePixel, hparams, fbAt_pixelShown]
    by_cases hx : x = p.x
    · rw [hx]
    · simp only [hx, false_and]

/-- SC.RENDER leaves the other rows, and what is no channel of the frame (R196). -/
theorem fbAt_renderSprites_of_off {s : State} {ly x y : Byte} {ch : BitVec 2} (h : y ≠ ly ∨ ¬ Spec.onFrame s x y ch)
    (tall : Bool) : (s.renderSprites ly tall).fbAt x y ch = s.fbAt x y ch := by
  rw [renderSprites_eq_foldl_putPixel]
  refine (foldl_invariant (P := fun t => SameButFrame s t ∧ t.fbAt x y ch = s.fbAt x y ch) _ ?_ s ⟨.refl s, rfl⟩).2
  rintro t p - ⟨ht, hkept⟩
  obtain ⟨hparams, -⟩ := ht.fields
  refine ⟨ht.trans (.putPixel ly t p), ?_⟩
  rw [fbAt_putPixel, if_neg, hkept]
  rintro ⟨-, -, rfl, hframe⟩
  rw [hparams, onFrame_eq_true] at hframe
  exact h.elim (· rfl) (· hframe)

/-- A pixel's writes to a row off the frame are all rejected (R200, R221). -/
theorem writePixel_of_off_frame {s : State} {ly : Byte} (h : s.params.screenH ≤ ly.toNat) (x : Byte) (v : Channels) :
    s.writePixel x ly v = s := by
  have hoff (ch : BitVec 2) : ¬ onFrame s.params x ly ch = true := by
    rw [onFrame_eq_true]
    omega
  have hkept (ch : BitVec 2) (w : Byte) : s.writeFb x ly ch w = s := if_neg (hoff ch)
  simp only [State.writePixel, hkept]

/-- SC.RENDER of a row off the frame leaves the frame buffer (R200). -/
theorem renderSprites_fb_of_off_frame {s : State} {ly : Byte} (h : s.params.screenH ≤ ly.toNat) (tall : Bool) :
    (s.renderSprites ly tall).fb = s.fb := by
  suffices hpass : s.params.screenH ≤ ly.toNat →
      (s.renderSprites ly tall).params = s.params ∧ (s.renderSprites ly tall).fb = s.fb from (hpass h).2
  refine renderSprites_relation
    (R := fun t u => t.params.screenH ≤ ly.toNat → u.params = t.params ∧ u.fb = t.fb) (fun _ _ => ⟨rfl, rfl⟩) ?_
    (fun _ _ => ⟨rfl, rfl⟩) (fun t x attr ci ht => by rw [writePixel_of_off_frame ht]; exact ⟨rfl, rfl⟩) s tall
  intro t u v htu huv ht
  obtain ⟨hparams, hfb⟩ := htu ht
  rw [← hparams, ← hfb]
  exact huv (hparams ▸ ht)

/-- Settles O46: of all that SC.RENDER may change only the count of free values is left. -/
theorem renderOffFrameStoresNothing : Obligations.RenderOffFrameStoresNothing := by
  intro s ly tall h
  refine ⟨_, exec_scRender s ly tall, ?_⟩
  have hfb := renderSprites_fb_of_off_frame h tall
  have hsame := (SameButFrame.renderSprites s ly tall).setRes_eq 0#32
  generalize s.renderSprites ly tall = t at hfb hsame
  rw [setRes_fb, hfb] at hsame
  exact hsame

theorem SameButFrame.setFb (s : State) (m : Memory) : SameButFrame s (s.setFb m) := rfl

/-- `t` and `u`, reached from `s` and from `s` with the frame buffer `fb'`, differ in the frame buffer alone, each channel
either untouched in both or the same in both. -/
def SameWrites (s : State) (fb' : Memory) (t u : State) : Prop :=
  (∃ f, u = t.setFb f) ∧
  ∀ x y ch, (t.fbAt x y ch = s.fbAt x y ch ∧ u.fbAt x y ch = cellAt fb' (fbKey x y ch)) ∨ t.fbAt x y ch = u.fbAt x y ch

theorem pixelShown_setFb (t : State) (f : Memory) (attr ly x : Byte) :
    (t.setFb f).pixelShown attr ly x = ((t.pixelShown attr ly x).1, (t.pixelShown attr ly x).2.setFb f) :=
  pixelShown_commute (.setFb f) rfl rfl rfl rfl attr

/-- The work for a pixel does not read the frame buffer. -/
theorem putPixel_setFb (t : State) (f : Memory) (ly : Byte) (p : SpritePixel) :
    ∃ f', (t.setFb f).putPixel ly p = (t.putPixel ly p).setFb f' := by
  have hshown := pixelShown_setFb t f p.attr ly p.x
  simp only [State.putPixel, drawPixel_eq, hshown]
  split
  · simp only [State.writePixel, writeFb_eq_setFb]
    exact ⟨_, rfl⟩
  · exact ⟨f, rfl⟩

theorem SameWrites.putPixel {s t u : State} {fb' : Memory} (h : SameWrites s fb' t u) (ly : Byte) (p : SpritePixel) :
    SameWrites s fb' (t.putPixel ly p) (u.putPixel ly p) := by
  obtain ⟨⟨f, rfl⟩, hchannels⟩ := h
  refine ⟨putPixel_setFb t f ly p, fun x y ch => ?_⟩
  have hother : ((t.setFb f).putPixel ly p).fbAt x y ch =
      if (t.pixelShown p.attr ly p.x).1 = true ∧ x = p.x ∧ y = ly ∧ onFrame t.params x ly ch = true then
        some ((t.pixelChannels p.attr p.ci).get ch)
      else (t.setFb f).fbAt x y ch := by
    rw [fbAt_putPixel, pixelShown_setFb]
    rfl
  rw [fbAt_putPixel, hother]
  split
  · exact .inr rfl
  · exact hchannels x y ch

/-- Two sprite passes that differ in the frame buffer alone write the same (R196). -/
theorem sameWrites_renderSprites (s : State) (fb' : Memory) (ly : Byte) (tall : Bool) :
    SameWrites s fb' (s.renderSprites ly tall) ((s.setFb fb').renderSprites ly tall) := by
  rw [renderSprites_eq_foldl_putPixel, renderSprites_eq_foldl_putPixel, (SameButFrame.setFb s fb').linePixels]
  exact foldl_lockstep (fun t u p h => h.putPixel ly p) _ _ _ ⟨⟨fb', rfl⟩, fun _ _ _ => .inl ⟨rfl, rfl⟩⟩

/-- Settles O44: what the pass can change, which channels it leaves, and that it never reads the frame. -/
theorem renderWritesOnlyItsRowOfTheFrame : Obligations.RenderWritesOnlyItsRowOfTheFrame := by
  intro s ly tall fb'
  have hsame := (SameButFrame.renderSprites s ly tall).setRes_eq 0#32
  have hoff (x y : Byte) (ch : BitVec 2) (h : y ≠ ly ∨ ¬ Spec.onFrame s x y ch) := fbAt_renderSprites_of_off h tall
  have hwrites := (sameWrites_renderSprites s fb' ly tall).2
  refine ⟨_, _, exec_scRender s ly tall, exec_scRender (s.setFb fb') ly tall, ?_⟩
  generalize s.renderSprites ly tall = t at *
  generalize (s.setFb fb').renderSprites ly tall = u at *
  exact ⟨hsame, hoff, hwrites⟩

/-! ## The picture -/

/-- The pixel is shown over the entry at its column, if that entry is live (R191, R192). -/
def State.shows (s : State) (p : SpritePixel) : Bool :=
  s.override || pixelShownOver s.cgb (attrPrio p.attr) ((s.pb[p.x.toNat]?).getD ⟨false, 0#2, false⟩).ci
    ((s.pb[p.x.toNat]?).getD ⟨false, 0#2, false⟩).prio

/-- What the pixel leaves in channel `ch` of column `x`, if it is there and shown (R193 to R195). -/
def State.paint (s : State) (x : Byte) (ch : BitVec 2) (p : SpritePixel) : Option Byte :=
  if s.shows p = true ∧ x = p.x then some ((s.pixelChannels p.attr p.ci).get ch) else none

/-- With R297's premise met at the pixel the shown test is fixed. -/
theorem pixelShown_of_entryReady {s : State} {ly : Byte} {p : SpritePixel} (hx : p.x.toNat < s.params.screenW)
    (h : Spec.entryReady s ly p.x) : (s.pixelShown p.attr ly p.x).1 = s.shows p := by
  rw [pixelShown_eq, State.shows]
  rcases h with hover | ⟨hopen, htag, e, hentry, hvalid⟩
  · rw [override_eq_true.2 hover]
    rfl
  · rw [readPb_live (pbEntryAt_eq_some.2 ⟨hopen, htag.symm, hx, hentry, hvalid⟩), hentry]
    cases s.override <;> rfl

theorem SameButFrame.entryReady {s t : State} (h : SameButFrame s t) {ly x : Byte} (hready : Spec.entryReady s ly x) :
    Spec.entryReady t ly x := by
  obtain ⟨fb, n, rfl⟩ := sameButFrame_iff.1 h
  exact hready

theorem SameButFrame.paint {s t : State} (h : SameButFrame s t) (x : Byte) (ch : BitVec 2) (p : SpritePixel) :
    t.paint x ch p = s.paint x ch p := by
  obtain ⟨fb, n, rfl⟩ := sameButFrame_iff.1 h
  rfl

/-- A channel of the scanline after the work for a pixel that meets R297's premise, if it falls there. -/
theorem fbAt_putPixel_of_entryReady {s : State} {ly x : Byte} {ch : BitVec 2} (hframe : Spec.onFrame s x ly ch) {p : SpritePixel}
    (hready : x = p.x → Spec.entryReady s ly x) : (s.putPixel ly p).fbAt x ly ch = (s.paint x ch p).or (s.fbAt x ly ch) := by
  rw [fbAt_putPixel, State.paint]
  by_cases hx : x = p.x
  · subst hx
    have hshown := pixelShown_of_entryReady hframe.1 (hready rfl)
    simp only [hshown, onFrame_eq_true.2 hframe, and_true]
    split <;> rfl
  · simp only [hx, false_and, and_false, if_false, Option.none_or]

/-- A channel of the scanline after the work for a list of pixels: the last one that paints it counts (R195, R222). -/
theorem fbAt_foldl_putPixel {s : State} {ly x : Byte} {ch : BitVec 2} (hframe : Spec.onFrame s x ly ch) (pixels : List SpritePixel)
    (hready : ∀ p ∈ pixels, x = p.x → Spec.entryReady s ly x) {t : State} (ht : SameButFrame s t) :
    (pixels.foldl (State.putPixel ly) t).fbAt x ly ch = (pixels.reverse.findSome? (s.paint x ch)).or (t.fbAt x ly ch) := by
  induction pixels generalizing t with
  | nil => rfl
  | cons p pixels ih =>
    have hframe' : Spec.onFrame t x ly ch := by rwa [Spec.onFrame, ht.fields.1]
    have hstep := fbAt_putPixel_of_entryReady hframe' fun hx => ht.entryReady (hready p (by simp) hx)
    rw [List.foldl_cons, ih (fun q hq => hready q (List.mem_cons_of_mem p hq)) (ht.trans (.putPixel ly t p)), hstep, ht.paint,
      List.reverse_cons, List.findSome?_append, Option.or_assoc]
    simp

/-- SC.RENDER as a picture: a channel of the scanline ends as the last pixel that paints it has it (R197), from every frame and
count of free values. -/
theorem fbAt_renderSprites {s t : State} (ht : SameButFrame s t) {ly x : Byte} {tall : Bool} {ch : BitVec 2}
    (hframe : Spec.onFrame s x ly ch) (hready : ∀ p ∈ s.linePixels ly tall, x = p.x → Spec.entryReady s ly x) :
    (t.renderSprites ly tall).fbAt x ly ch =
      ((s.linePixels ly tall).reverse.findSome? (s.paint x ch)).or (t.fbAt x ly ch) := by
  rw [renderSprites_eq_foldl_putPixel, ht.linePixels]
  exact fbAt_foldl_putPixel hframe _ hready ht

/-! ## Rendering twice -/

/-- The premise for the whole scanline is the premise for each of its columns (R297). -/
theorem entryReady_of_spriteReady {s : State} {ly x : Byte} (h : s.spriteReady ly) (hx : x.toNat < s.params.screenW) :
    Spec.entryReady s ly x := by
  rcases h with hover | ⟨hopen, htag, hlength, hvalid⟩
  · exact .inl (override_eq_true.1 hover)
  · have hlt : x.toNat < s.pb.length := hlength ▸ hx
    exact .inr ⟨hopen, htag, _, List.getElem?_eq_getElem hlt, hvalid _ (List.getElem_mem hlt)⟩

/-- The result word is unseen. -/
theorem setRes_unseen (s : State) (ly : Byte) (tall : Bool) (v : Word) : s.Unseen ly tall (State.setRes · v) :=
  ⟨linePixels_congr rfl (fun _ _ => ⟨rfl, rfl, rfl, rfl⟩) fun _ _ => rfl,
    fun _ attr _ _ => pixelShown_commute (State.setRes · v) rfl rfl rfl rfl attr,
    fun _ _ _ _ => rfl, fun _ x => writeFb_commute (State.setRes · v) rfl rfl (fun _ => rfl) x ly⟩

/-- Over a scanline that meets R297's premise a second pass leaves every channel as it is (R202). -/
theorem fbAt_renderSprites_twice {s : State} {ly : Byte} (h : s.spriteReady ly) (tall : Bool) (x y : Byte) (ch : BitVec 2) :
    ((s.renderSprites ly tall).renderSprites ly tall).fbAt x y ch = (s.renderSprites ly tall).fbAt x y ch := by
  have hsame := SameButFrame.renderSprites s ly tall
  by_cases hrow : y = ly ∧ Spec.onFrame s x y ch
  · obtain ⟨rfl, hframe⟩ := hrow
    have hready : ∀ p ∈ s.linePixels y tall, x = p.x → Spec.entryReady s y x :=
      fun _ _ _ => entryReady_of_spriteReady h hframe.1
    rw [fbAt_renderSprites hsame hframe hready, fbAt_renderSprites (.refl s) hframe hready, ← Option.or_assoc, Option.or_self]
  · refine fbAt_renderSprites_of_off ?_ tall
    rw [Spec.onFrame, hsame.fields.1]
    exact not_and_or.1 hrow

/-- Settles O54: the second pass starts from the first one's state and its result word, which it does not see. -/
theorem renderingTwiceIsRenderingOnce : Obligations.RenderingTwiceIsRenderingOnce := by
  intro s ly tall h
  refine ⟨_, _, exec_scRender s ly tall, exec_scRender _ ly tall, fun x y ch => ?_⟩
  rw [(setRes_unseen _ ly tall 0#32).renderSprites, fbAt_setRes, fbAt_setRes, fbAt_setRes, fbAt_renderSprites_twice h]

/-! ## The lowest-indexed sprite shown -/

/-- The screen column of a sprite's left edge as a number (R183). -/
theorem spriteLeft_toNat (ox : Byte) : (spriteLeft ox).toNat = (ox.toNat + 248) % 256 := by
  simp only [spriteLeft, BitVec.toNat_sub, BitVec.toNat_ofNat]
  omega

/-- The row offset of a sprite on the scanline as a number (R141, R186). -/
theorem spriteOffset_toNat {s : State} {ly : Byte} {tall : Bool} {i : Nat} (h : s.spriteOnLine ly tall i = true) (yflip : Bool) :
    (rowOffset (spriteRow (spriteTop (s.oamByte (4 * i))) ly) tall yflip).toNat =
      2 * (if yflip then Spec.height tall - 1 - (ly.toNat - Spec.top s i) else ly.toNat - Spec.top s i) := by
  obtain ⟨hrow, hlt⟩ := spriteRow_toNat h
  rw [rowOffset_toNat _ _ _ (by rwa [hrow]), hrow, spriteTop_toNat]
  rfl

/-- The colour index of a column is the statements' (R185 to R189). -/
theorem spriteIndex_eq_columnIndex {s : State} {ly : Byte} {tall : Bool} {i : Nat} (h : s.spriteOnLine ly tall i = true)
    (c : BitVec 3) : Spec.spriteIndex s ly tall i c.toNat = (s.columnIndex ly tall i c).toNat := by
  have htile := spriteTile_toNat tall (s.oamByte (4 * i + 2))
  have hoffset := spriteOffset_toNat h (attrYflip (s.oamByte (4 * i + 3)))
  have haddr : (s.spriteRowAt ly tall i).2 = BitVec.ofNat 16 _ := tileAddress_eq s.params _ _
  rw [htile, hoffset] at haddr
  rw [State.columnIndex, pixelIndex_toNat, haddr, ← BitVec.ofNat_add]
  rfl

/-- Which column of a sprite lands on screen column `x` (R183, R189). -/
theorem eq_pixelColumn_iff {s : State} {i : Nat} {x : Byte} {c : BitVec 3} :
    x = pixelColumn (spriteLeft (s.oamByte (4 * i + 1))) c ↔ (x.toNat + 256 - Spec.left s i) % 256 = c.toNat := by
  have hleft : (spriteLeft (s.oamByte (4 * i + 1))).toNat = Spec.left s i := spriteLeft_toNat _
  have := x.isLt
  have := c.isLt
  have := (spriteLeft (s.oamByte (4 * i + 1))).isLt
  rw [pixelColumn, ← BitVec.toNat_inj, BitVec.toNat_add, BitVec.toNat_setWidth, hleft]
  omega

/-- A channel of a colour is the table's entry for one of its fields (R86, R124). -/
theorem splitColour_get (p : Params) (rgb15 : BitVec 15) {ch : BitVec 2} (hch : ch.toNat < 3) :
    (splitColour p rgb15).get ch = (p.expand5.toList[rgb15.toNat / 32 ^ ch.toNat % 32]?).getD 0#8 := by
  have hentry (v : BitVec 5) {n : Nat} (hn : v.toNat = n) : expandChannel p v = (p.expand5.toList[n]?).getD 0#8 := by
    rw [← hn, expand5_getElem?_eq_expandChannel]
    rfl
  obtain ⟨hfield0, hfield1, hfield2⟩ := colourFields_toNat rgb15
  have hcases : ch = 0#2 ∨ ch = 1#2 ∨ ch = 2#2 := by
    revert ch
    decide
  rcases hcases with rfl | rfl | rfl
  · exact hentry _ (hfield0.trans (by simp))
  · exact hentry _ hfield1
  · exact hentry _ hfield2

/-- The colour of a shown pixel is the statements' (R193, R194). -/
theorem pixelChannels_get_eq_channelValue (s : State) (i : Nat) (ci : BitVec 2) {ch : BitVec 2} (hch : ch.toNat < 3) :
    (s.pixelChannels (s.oamByte (4 * i + 3)) ci).get ch = Spec.channelValue s i ci.toNat ch := by
  rw [State.pixelChannels, Spec.channelValue, State.cgb]
  split
  · rw [splitColour_get _ _ hch, BitVec.ofNat_toNat, BitVec.setWidth_eq]
    rfl
  · rw [shadeChannels_get, ← BitVec.ofNat_toNat, State.resolveShade, shadeOf_toNat]
    rfl

/-- The suppression tests of R192, the two at once. -/
theorem pixelShownOver_eq_true {cgb sprPrio bprio : Bool} {bci : BitVec 2} :
    pixelShownOver cgb sprPrio bci bprio = true ↔ ¬ ((sprPrio = true ∧ bci ≠ 0#2) ∨ (cgb = true ∧ bprio = true)) := by
  rw [pixelShownOver]
  split
  · simp [*]
  · split <;> simp [*]

/-- A pixel of sprite `i` is shown unless the statements have it suppressed (R191, R192). -/
theorem shows_eq_true {s : State} {i : Nat} {p : SpritePixel} (hattr : p.attr = s.oamByte (4 * i + 3)) :
    s.shows p = true ↔ ¬ Spec.suppressedBy s i ((s.pb[p.x.toNat]?).getD ⟨false, 0#2, false⟩) := by
  rw [State.shows, hattr, Bool.or_eq_true, override_eq_true, pixelShownOver_eq_true, Spec.suppressedBy, not_and_or, not_not]
  rfl

/-- A search for the one hit of a list finds it. -/
theorem findSome?_ite_eq {α β : Type} [DecidableEq α] {l : List α} {a : α} (h : a ∈ l) (v : Option β) :
    l.findSome? (fun c => if c = a then v else none) = v := by
  induction l with
  | nil => cases h
  | cons b l ih =>
    rw [List.findSome?_cons]
    by_cases hb : b = a
    · cases v <;> simp [hb]
    · rw [if_neg hb]
      exact ih ((List.mem_cons.1 h).resolve_left (Ne.symm hb))

/-- A search through what a list is mapped to. -/
theorem findSome?_filterMap {α β γ : Type} (l : List α) (g : α → Option β) (f : β → Option γ) :
    (l.filterMap g).findSome? f = l.findSome? fun a => (g a).bind f := by
  simp only [← List.head?_filterMap, List.filterMap_filterMap]

/-- A search through lists one after the other. -/
theorem findSome?_flatMap {α β γ : Type} (l : List α) (g : α → List β) (f : β → Option γ) :
    (l.flatMap g).findSome? f = l.findSome? fun a => (g a).findSome? f := by
  simp only [← List.head?_filterMap, List.filterMap_flatMap, List.head?_flatMap]

theorem mem_columnOrder (c : BitVec 3) : c ∈ columnOrder := by
  revert c
  decide

section
variable {s : State} {ly x : Byte} {tall : Bool} {i : Nat} {ch : BitVec 2} {c : BitVec 3}

/-- The pixel of a column paints nothing where it does not fall. -/
theorem columnPixel_paint_of_ne (hx : x ≠ pixelColumn (spriteLeft (s.oamByte (4 * i + 1))) c) :
    (s.columnPixel ly tall i c).bind (s.paint x ch) = none := by
  rw [State.columnPixel]
  split
  · rfl
  · exact if_neg fun h => hx h.2

/-- Where it falls, the pixel of a column paints what the statements show there (R190 to R195). -/
theorem columnPixel_paint_of_eq (hline : s.spriteOnLine ly tall i = true) (hch : ch.toNat < 3)
    (hx : x = pixelColumn (spriteLeft (s.oamByte (4 * i + 1))) c) :
    (s.columnPixel ly tall i c).bind (s.paint x ch) =
      (Spec.shownIndex s ly tall x i).map fun ci => Spec.channelValue s i ci ch := by
  have hzero : (s.columnIndex ly tall i c).toNat = 0 ↔ s.columnIndex ly tall i c = 0#2 := BitVec.toNat_inj (y := 0#2)
  simp only [Spec.shownIndex, eq_pixelColumn_iff.1 hx, spriteIndex_eq_columnIndex hline, eq_true (spriteOnLine_iff.1 hline),
    c.isLt, ne_eq, hzero, true_and]
  rw [State.columnPixel]
  by_cases hci : s.columnIndex ly tall i c = 0#2
  · rw [if_pos hci, if_neg fun h => h.1 hci]
    rfl
  · rw [if_neg hci, Option.bind_some, State.paint, pixelChannels_get_eq_channelValue s i _ hch, ← hx]
    have hshows := shows_eq_true (s := s) (i := i) (p := ⟨s.oamByte (4 * i + 3), x, s.columnIndex ly tall i c⟩) rfl
    simp only [hshows, hci, not_false_eq_true, true_and, and_true, apply_ite (Option.map _), Option.map_some, Option.map_none]

/-- The last pixel of sprite `i` that paints column `x` is the one the statements show there (R189). -/
theorem findSome?_paint_spritePixels (hch : ch.toNat < 3) :
    (s.spritePixels ly tall i).reverse.findSome? (s.paint x ch) =
      (Spec.shownIndex s ly tall x i).map fun ci => Spec.channelValue s i ci ch := by
  by_cases hline : s.spriteOnLine ly tall i = true
  · rw [State.spritePixels, if_pos hline, ← List.filterMap_reverse, findSome?_filterMap]
    by_cases hcolumn : ∃ c, x = pixelColumn (spriteLeft (s.oamByte (4 * i + 1))) c
    · obtain ⟨c, hx⟩ := hcolumn
      have hothers (d : BitVec 3) : (s.columnPixel ly tall i d).bind (s.paint x ch) =
          if d = c then (s.columnPixel ly tall i c).bind (s.paint x ch) else none := by
        split
        · rw [‹d = c›]
        · refine columnPixel_paint_of_ne fun hd => ‹¬ d = c› (BitVec.eq_of_toNat_eq ?_)
          rw [← eq_pixelColumn_iff.1 hd, eq_pixelColumn_iff.1 hx]
      rw [funext hothers, findSome?_ite_eq (List.mem_reverse.2 (mem_columnOrder c)), columnPixel_paint_of_eq hline hch hx]
    · rw [List.findSome?_eq_none_iff.2 fun c _ => columnPixel_paint_of_ne fun hx => hcolumn ⟨c, hx⟩, Spec.shownIndex, if_neg]
      · rfl
      rintro ⟨-, hn, -⟩
      refine hcolumn ⟨BitVec.ofNat 3 ((x.toNat + 256 - Spec.left s i) % 256), eq_pixelColumn_iff.2 ?_⟩
      rw [BitVec.toNat_ofNat, Nat.mod_eq_of_lt hn]
  · rw [spritePixels_of_not_visible (mt spriteOnLine_iff.2 hline), Spec.shownIndex, if_neg fun h => hline (spriteOnLine_iff.2 h.1)]
    rfl

/-- A pixel of the scanline at column `x` touches it in the statements' sense. -/
theorem touched_of_mem_linePixels {p : SpritePixel} (hp : p ∈ s.linePixels ly tall) (hx : x = p.x) :
    Spec.touched s ly tall x := by
  obtain ⟨i, hi, hp⟩ := List.mem_flatMap.1 hp
  by_cases hline : s.spriteOnLine ly tall i = true
  · rw [State.spritePixels, if_pos hline] at hp
    obtain ⟨c, -, hc⟩ := List.mem_filterMap.1 hp
    rw [State.columnPixel] at hc
    split at hc
    · cases hc
    · obtain rfl := Option.some.inj hc
      have hn := eq_pixelColumn_iff.1 hx
      refine ⟨i, mem_spriteOrder.1 hi, spriteOnLine_iff.1 hline, hn ▸ c.isLt, ?_⟩
      rw [hn, spriteIndex_eq_columnIndex hline]
      exact fun h0 => ‹¬ _› (BitVec.eq_of_toNat_eq h0)
  · rw [spritePixels_of_not_visible (mt spriteOnLine_iff.2 hline)] at hp
    cases hp

/-- The last pixel of the scanline that paints column `x` is the winner's, for the sprites are drawn from 39 down (R181, R198). -/
theorem findSome?_paint_linePixels (hch : ch.toNat < 3) :
    (s.linePixels ly tall).reverse.findSome? (s.paint x ch) =
      (Spec.winner s ly tall x).map fun w => Spec.channelValue s w.1 w.2 ch := by
  rw [State.linePixels, spriteOrder, List.reverse_flatMap, List.reverse_reverse, findSome?_flatMap, Spec.winner, List.map_findSome?]
  congr 1
  funext i
  rw [Function.comp_apply, findSome?_paint_spritePixels hch, Function.comp_apply, Option.map_map]
  rfl

end

/-- Settles O45: each channel ends as the last pixel painting it has it, which is the winner's. -/
theorem renderPaintsLowestIndexedShownSprite : Obligations.RenderPaintsLowestIndexedShownSprite := by
  intro s ly tall
  refine ⟨_, exec_scRender s ly tall, fun x ch hframe hready => ?_⟩
  rw [fbAt_setRes, fbAt_renderSprites (.refl s) hframe fun p hp hx => hready (touched_of_mem_linePixels hp hx),
    findSome?_paint_linePixels hframe.2.2]
  cases Spec.winner s ly tall x <;> rfl

end Sys2Proof.Machine
end


section
/-! PROOFS of the family 45_frame_buffer_writer.md: FB.WRITE is `writeFb` with the result 0, which changes one channel of the frame
or nothing (R220, R221), and FB.READ is `readFb`, which finds a written channel or draws a free byte (R223, R224). -/

namespace Sys2Proof.Machine

/-! ## FB.WRITE -/

/-- FB.WRITE is its write and the result 0 (R220). -/
theorem exec_fbWrite (s : State) (x y : Byte) (ch : BitVec 2) (v : Byte) :
    exec (.fbWrite x y ch v) s = .next ((s.writeFb x y ch v).setRes 0#32) := rfl

/-- On the frame the channel holds the value, whatever it held (R220, R222). -/
theorem fbAt_writeFb_same {s : State} {x y : Byte} {ch : BitVec 2} (h : Spec.onFrame s x y ch) (v : Byte) :
    (s.writeFb x y ch v).fbAt x y ch = some v := by
  rw [fbAt_writeFb, if_pos ⟨onFrame_eq_true.2 h, rfl, rfl, rfl⟩]

/-- Every other channel of every pixel stays (R220). -/
theorem fbAt_writeFb_other (s : State) {x y x' y' : Byte} {ch ch' : BitVec 2} (h : (x', y', ch') ≠ (x, y, ch)) (v : Byte) :
    (s.writeFb x y ch v).fbAt x' y' ch' = s.fbAt x' y' ch' := by
  rw [fbAt_writeFb, if_neg]
  rintro ⟨-, rfl, rfl, rfl⟩
  exact h rfl

/-- A write changes the frame buffer alone (R220). -/
theorem writeFb_eq_set_fb (s : State) (x y : Byte) (ch : BitVec 2) (v : Byte) :
    s.writeFb x y ch v = { s with fb := (s.writeFb x y ch v).fb } := by
  rw [writeFb_eq_setFb]
  rfl

/-- A write off the frame, or to channel 3, is dropped whole (R221). -/
theorem writeFb_eq_self {s : State} {x y : Byte} {ch : BitVec 2} (h : ¬ Spec.onFrame s x y ch) (v : Byte) :
    s.writeFb x y ch v = s := by
  rw [State.writeFb, if_neg (mt onFrame_eq_true.1 h)]

/-- Settles O42: the state after is `writeFb` with the result 0, which stores one channel or is the state before. -/
theorem fbWriteStoresOneChannelOrNothing : Obligations.FbWriteStoresOneChannelOrNothing := by
  intro s x y ch value
  constructor
  · intro hframe
    exact ⟨_, exec_fbWrite s x y ch value, fbAt_writeFb_same hframe value, fun _ _ _ hne => fbAt_writeFb_other s hne value,
      congrArg (·.setRes 0#32) (writeFb_eq_set_fb s x y ch value)⟩
  · intro hoff
    rw [exec_fbWrite, writeFb_eq_self hoff, State.setRes]

/-! ## FB.READ -/

/-- A read of a written channel of the frame returns it and leaves the state alone (R223). -/
theorem readFb_written {s : State} {x y : Byte} {ch : BitVec 2} {v : Byte} (hframe : Spec.onFrame s x y ch)
    (hv : s.fbAt x y ch = some v) : s.readFb x y ch = (v, s) := by
  rw [State.readFb, if_pos (onFrame_eq_true.2 hframe), hv]

/-- A read off the frame, or of an unwritten channel, returns a free byte and counts it (R224). -/
theorem readFb_missing {s : State} {x y : Byte} {ch : BitVec 2} (h : ¬ Spec.onFrame s x y ch ∨ s.fbAt x y ch = none) :
    s.readFb x y ch = (Config.freeFbByte s.freeCount, s.drawFree) := by
  have hnone : (if onFrame s.params x y ch then s.fbAt x y ch else none) = none := by
    rcases h with hoff | hunwritten
    · exact if_neg (mt onFrame_eq_true.1 hoff)
    · rw [hunwritten, ite_self]
  rw [State.readFb, hnone]

/-- Settles O43: the read finds the written channel, or draws a free byte in either other case. -/
theorem fbReadReturnsWrittenChannelOrAnyBits : Obligations.FbReadReturnsWrittenChannelOrAnyBits := by
  intro s x y ch
  constructor
  · intro v hframe hv
    rw [exec_fbRead, readFb_written hframe hv, BitVec.ofNat_toNat, State.setRes]
  · intro hmissing
    refine ⟨_, Config.freeFbByte s.freeCount, exec_fbRead s x y ch, ?_⟩
    rw [readFb_missing hmissing, BitVec.ofNat_toNat]
    rfl

end Sys2Proof.Machine
end

section
/-! PROOFS of the family 46_config_and_status.md: MODE.WR, MPAL.WR and CPAL.WR write one element and return 0 (R241 to R243), and the
five fields of STATUS.RD's word are the flags, free where a register is unwritten (R244). -/

namespace Sys2Proof.Machine

/-! ## STATUS.RD -/

/-- STATUS.RD's word as a number (R244). -/
theorem statusWord_toNat (mode : BitVec 2) (pbOpen : Bool) (pbLy : Byte) (fault : BitVec 4) :
    (statusWord mode pbOpen pbLy fault).toNat =
      mode.toNat + 4 * pbOpen.toNat + 256 * pbLy.toNat + 65536 * fault.toNat := by
  have hword := (fault ++ pbLy ++ 0#5 ++ BitVec.ofBool pbOpen ++ mode : BitVec 20).isLt
  rw [statusWord, BitVec.toNat_setWidth, Nat.mod_eq_of_lt (hword.trans (by decide))]
  simp only [toNat_append_eq_add, BitVec.toNat_ofBool, BitVec.toNat_ofNat]
  omega

/-- The fields of STATUS.RD's word, the low one first (R244). -/
theorem statusWord_fields (mode : BitVec 2) (pbOpen : Bool) (pbLy : Byte) (fault : BitVec 4) :
    let w := statusWord mode pbOpen pbLy fault
    w.extractLsb' 0 2 = mode ∧ w.extractLsb' 2 1 = BitVec.ofBool pbOpen ∧ w.extractLsb' 3 5 = 0#5 ∧
      w.extractLsb' 8 8 = pbLy ∧ w.extractLsb' 16 4 = fault ∧ w.extractLsb' 20 12 = 0#12 := by
  have := mode.isLt; have := pbOpen.toNat_lt; have := pbLy.isLt; have := fault.isLt
  refine ⟨?_, ?_, ?_, ?_, ?_, ?_⟩ <;> apply BitVec.eq_of_toNat_eq <;>
    simp only [BitVec.extractLsb'_toNat, statusWord_toNat, Nat.shiftRight_eq_div_pow, BitVec.toNat_ofBool, BitVec.toNat_ofNat] <;>
    omega

/-- A bit of a field is a bit of the word. -/
theorem getLsbD_of_extractLsb'_eq {w : Word} {lo n : Nat} {v : BitVec n} (h : w.extractLsb' lo n = v) {k : Nat} (hk : k < n) :
    w.getLsbD (lo + k) = v.getLsbD k := by
  simp [← h, hk]

/-- STATUS.RD answers the flags as they stand, but any bits for MODE and for PB_LY while they are unwritten, and draws at most one
free value (R244). -/
theorem exec_statusRd_answers (s : State) : ∃ u mode pbLy,
    exec .statusRd s = .next (u.setRes (statusWord mode s.pbOpen pbLy s.fault)) ∧ (u = s ∨ u = s.drawFree) ∧
      (s.modeSet = true → mode = s.mode) ∧ (s.pbLySet = true → pbLy = s.pbLy) :=
  ⟨_, _, _, rfl, ite_eq_or_eq .., fun h => if_pos h, fun h => if_pos h⟩

/-- With both registers written nothing is free (R244). -/
theorem exec_statusRd_written {s : State} (hmode : s.modeSet = true) (hly : s.pbLySet = true) :
    exec .statusRd s = .next (s.setRes (statusWord s.mode s.pbOpen s.pbLy s.fault)) := by
  simp [exec, execStatusRd, hmode, hly]

/-- Settles O26: the answer's word has the flags as its fields, and it was written after at most one free value was drawn. -/
theorem statusReadReportsFlags : Obligations.StatusReadReportsFlags := by
  intro s
  obtain ⟨u, mode, pbLy, hexec, hdraw, hmode, hly⟩ := exec_statusRd_answers s
  obtain ⟨hmodeField, hopenField, hzero, hlyField, hfaultField, hhigh⟩ := statusWord_fields mode s.pbOpen pbLy s.fault
  refine ⟨_, hexec, fun hset => ?_, ?_, hzero, fun hset => hlyField.trans (hly hset), hfaultField, hhigh,
    SameButAnswer.setRes_of_draw hdraw _⟩
  · rw [← hmode hset]
    exact ⟨getLsbD_of_extractLsb'_eq hmodeField (k := 0) (by decide), getLsbD_of_extractLsb'_eq hmodeField (k := 1) (by decide)⟩
  · exact (getLsbD_of_extractLsb'_eq hopenField (k := 0) (by decide)).trans (by simp)

/-! ## MODE.WR -/

/-- MODE.WR is its write and the result 0 (R241). -/
theorem exec_modeWr (s : State) (cgb bgpri : Bool) :
    exec (.modeWr cgb bgpri) s = .next ((s.writeMode cgb bgpri).setRes 0#32) := rfl

/-- MODE as a number: CGB in bit 0, BGPRI in bit 1 (R22). -/
theorem modeBits_toNat (cgb bgpri : Bool) : (modeBits cgb bgpri).toNat = cgb.toNat + 2 * bgpri.toNat := by
  revert cgb bgpri
  decide

theorem modeBits_getLsbD (cgb bgpri : Bool) :
    (modeBits cgb bgpri).getLsbD 0 = cgb ∧ (modeBits cgb bgpri).getLsbD 1 = bgpri := by
  revert cgb bgpri
  decide

/-- Settles O23: the state after is `writeMode` with the result 0, and each flag is a bit of MODE. -/
theorem modeWriteSetsBothFlags : Obligations.ModeWriteSetsBothFlags := by
  intro s cgb bgpri
  obtain ⟨hcgb, hbgpri⟩ := modeBits_getLsbD cgb bgpri
  exact ⟨_, exec_modeWr s cgb bgpri, hcgb, hbgpri, rfl⟩

/-- Settles O27: both registers are written, so STATUS.RD's word has no free bit, and as a number it is the sum of its fields. -/
theorem statusReadReportsWhatWasWritten : Obligations.StatusReadReportsWhatWasWritten := by
  intro s cgb bgpri ly
  refine ⟨_, _, exec_modeWr s cgb bgpri, exec_pbBegin _ ly, ?_⟩
  have hword : statusWord (modeBits cgb bgpri) true ly s.fault =
      BitVec.ofNat 32 (cgb.toNat + 2 * bgpri.toNat + 4 + 256 * ly.toNat + 65536 * s.fault.toNat) := by
    rw [← modeBits_toNat, ← BitVec.setWidth_eq (statusWord ..), ← BitVec.ofNat_toNat, statusWord_toNat, Bool.toNat_true]
  rw [exec_statusRd_written rfl rfl, ← hword]
  rfl

/-! ## MPAL.WR -/

/-- MPAL.WR is its write and the result 0 (R242). -/
theorem exec_mpalWr (s : State) (sel : BitVec 1) (data : Byte) :
    exec (.mpalWr sel data) s = .next ((s.writeMpal sel data).setRes 0#32) := rfl

/-- A palette written is the palette read (R242). -/
theorem mpalAt_writeMpal_same (s : State) (sel : BitVec 1) (v : Byte) : (s.writeMpal sel v).mpalAt sel = v := by
  simp [State.mpalAt]

/-- The other palette stays (R242). -/
theorem mpalAt_writeMpal_other (s : State) {sel k : BitVec 1} (h : k ≠ sel) (v : Byte) :
    (s.writeMpal sel v).mpalAt k = s.mpalAt k :=
  Vector.getElem_set_ne sel.toFin.isLt k.toFin.isLt fun hk => h (BitVec.eq_of_toNat_eq hk.symm)

/-- Settles O24: the state after is `writeMpal` with the result 0. -/
theorem monochromePaletteWriteStoresByte : Obligations.MonochromePaletteWriteStoresByte := by
  intro s sel data
  exact ⟨_, exec_mpalWr s sel data, mpalAt_writeMpal_same s sel data, fun _ hk => mpalAt_writeMpal_other s hk data, rfl⟩

/-! ## CPAL.WR -/

/-- CPAL.WR is its write and the result 0 (R243). -/
theorem exec_cpalWr (s : State) (l : Bool) (p : BitVec 3) (k : BitVec 2) (v : BitVec 15) :
    exec (.cpalWr l p k v) s = .next ((s.writeCpal l p k v).setRes 0#32) := rfl

/-- Every other entry stays, since no two share an index (R243). -/
theorem cpalAt_writeCpal_other (s : State) {l l' : Bool} {p p' : BitVec 3} {k k' : BitVec 2} (h : (l', p', k') ≠ (l, p, k))
    (v : BitVec 15) : (s.writeCpal l p k v).cpalAt l' p' k' = s.cpalAt l' p' k' := by
  refine Vector.getElem_set_ne (cpalIndex l p k).isLt (cpalIndex l' p' k').isLt fun hindex => h ?_
  obtain ⟨rfl, rfl, rfl⟩ := cpalIndex_inj.1 (Fin.ext hindex)
  rfl

/-- Settles O25: the state after is `writeCpal` with the result 0. -/
theorem colourPaletteWriteStoresEntry : Obligations.ColourPaletteWriteStoresEntry := by
  intro s l p k rgb15
  exact ⟨_, exec_cpalWr s l p k rgb15, cpalAt_writeCpal_same s l p k rgb15,
    fun _ _ _ hne => cpalAt_writeCpal_other s hne rgb15, rfl⟩

end Sys2Proof.Machine
end

section
/-! PROOFS of the family 60_exceptions.md, the invariant: every operation on the state keeps it, so every instruction and every
step does (R28, R50, R261, R302). -/

namespace Sys2Proof.Machine

/-- A step with nothing waiting keeps the state (R276); any other takes the oldest input (R111). -/
theorem step_next_cases {s t : State} (h : step s = .next t) :
    (s.inbox = [] ∧ t = s) ∨ ∃ e rest, s.inbox = e :: rest ∧ takeInput e { s with inbox := rest } = .next t := by
  cases hi : s.inbox with
  | nil =>
    rw [step, if_pos (step_wf h), takeNextInput, hi] at h
    injection h with h
    exact .inl ⟨rfl, h.symm⟩
  | cons e rest => exact .inr ⟨e, rest, rfl, (step_input (step_wf h) hi).symm.trans h⟩

/-! ## The operations on the state

An update of a field the invariant does not speak of keeps it as it stands. -/

theorem State.Inv.setRes {s : State} (h : s.Inv) (v : Word) : (s.setRes v).Inv := h

theorem State.Inv.drawFree {s : State} (h : s.Inv) : s.drawFree.Inv := h

theorem State.Inv.writeMode {s : State} (h : s.Inv) (cgb bgpri : Bool) : (s.writeMode cgb bgpri).Inv := h

theorem State.Inv.writeMpal {s : State} (h : s.Inv) (sel : BitVec 1) (v : Byte) : (s.writeMpal sel v).Inv := h

theorem State.Inv.writeCpal {s : State} (h : s.Inv) (l : Bool) (p : BitVec 3) (k : BitVec 2) (v : BitVec 15) :
    (s.writeCpal l p k v).Inv := h

theorem State.Inv.of_sameButAnswer {s t : State} (h : s.Inv) (ht : SameButAnswer s t) : t.Inv := by
  rw [ht]
  exact h

/-- BAD_TABLE is raised by nothing (R269), and the other codes are 1 and 2 (R261). -/
theorem State.Inv.raiseFault {s : State} (h : s.Inv) {c : FaultCode} (hc : c ≠ .badTable) : (raiseFault c s).Inv := by
  obtain ⟨hparams, hfault, hrest⟩ := h
  refine ⟨hparams, ?_, hrest⟩
  rw [raiseFault_fault]
  split
  · cases c with
    | illegalOp | badBank => decide
    | badTable => exact absurd rfl hc
  · exact hfault

theorem valid_of_mem_invalidEntries {pb : List PbEntry} {e : PbEntry} (h : e ∈ invalidEntries pb) : e.valid = false := by
  obtain ⟨_, -, rfl⟩ := List.mem_map.1 h
  rfl

theorem State.Inv.beginPb {s : State} (h : s.Inv) (ly : Byte) : (s.beginPb ly).Inv := by
  obtain ⟨hparams, hfault, hlength, -, -, hlists⟩ := h
  exact ⟨hparams, hfault, (invalidEntries_length _).trans hlength, fun _ _ => valid_of_mem_invalidEntries, fun _ => rfl, hlists⟩

theorem State.Inv.discardPb {s : State} (h : s.Inv) : s.discardPb.Inv := by
  obtain ⟨hparams, hfault, hlength, -, -, hlists⟩ := h
  exact ⟨hparams, hfault, (invalidEntries_length _).trans hlength, fun _ _ => valid_of_mem_invalidEntries,
    fun hopen => Bool.noConfusion hopen, hlists⟩

/-- An entry is stored in an open buffer alone, so none is live while closed (R163). -/
theorem State.Inv.writePb {s : State} (h : s.Inv) (x : Byte) (ci : BitVec 2) (prio : Bool) : (s.writePb x ci prio).Inv := by
  unfold State.writePb
  split
  · rename_i hstored
    obtain ⟨hparams, hfault, hlength, -, htag, hlists⟩ := h
    exact ⟨hparams, hfault, List.length_set.trans hlength, fun hclosed => absurd (hclosed.symm.trans hstored.1) Bool.false_ne_true,
      htag, hlists⟩
  · exact h

/-- A channel is stored on the frame alone, and its key tells its place (R220). -/
theorem State.Inv.writeFb {s : State} (h : s.Inv) (x y : Byte) (ch : BitVec 2) (v : Byte) : (s.writeFb x y ch v).Inv := by
  unfold State.writeFb
  split
  · rename_i hframe
    obtain ⟨hparams, hfault, hlength, hclosed, htag, hrising, hkeys, hmemories⟩ := h
    refine ⟨hparams, hfault, hlength, hclosed, htag, putCell_rising hrising, fun e he => ?_, hmemories⟩
    rcases mem_putCell he with rfl | he
    · obtain ⟨hx, hy, hch⟩ := onFrame_eq_true.1 hframe
      obtain ⟨hkch, hkx, hky⟩ := fbKey_parts x y ch
      exact ⟨hkch.symm ▸ hch, hkx.symm ▸ hx, hky.symm ▸ hy⟩
    · exact hkeys e he
  · exact h

/-- SC.RENDER draws free values and writes channels, nothing else (R196). -/
theorem State.Inv.renderSprites {s : State} (h : s.Inv) (ly : Byte) (tall : Bool) : (s.renderSprites ly tall).Inv :=
  renderSprites_relation (R := fun s t => s.Inv → t.Inv) (fun _ => id) (fun hst htu => htu ∘ hst) (fun _ hs => hs.drawFree)
    (fun _ _ _ _ hs => ((hs.writeFb ..).writeFb ..).writeFb ..) s tall h

theorem State.Inv.writeOam {s : State} (h : s.Inv) (off : Fin 160) (v : Byte) : (s.writeOam off v).Inv := by
  obtain ⟨hparams, hfault, hlength, hclosed, htag, hrising, hkeys, hoam, hvram⟩ := h
  exact ⟨hparams, hfault, hlength, hclosed, htag, hrising, hkeys, memWrite_wf off.isLt hoam, hvram⟩

theorem State.Inv.writeVram {s : State} (h : s.Inv) (bank : Bool) (a : BitVec 16) (v : Byte) : (s.writeVram bank a v).Inv := by
  obtain ⟨hparams, hfault, hlength, hclosed, htag, hrising, hkeys, hoam, hvram0, hvram1⟩ := h
  cases bank with
  | false => exact ⟨hparams, hfault, hlength, hclosed, htag, hrising, hkeys, hoam, memWrite_wf a.isLt hvram0, hvram1⟩
  | true => exact ⟨hparams, hfault, hlength, hclosed, htag, hrising, hkeys, hoam, hvram0, memWrite_wf a.isLt hvram1⟩

/-- Reset starts the block anew and keeps the memories (R290). -/
theorem State.Inv.resetBlock {s : State} (h : s.Inv) : (resetBlock s).Inv := by
  obtain ⟨hparams, -, -, -, -, -, -, hmemories⟩ := h
  obtain ⟨-, hfault, hlength, hclosed, htag, hrising, hkeys, -⟩ := afterReset_inv hparams s.freeCount
  exact ⟨hparams, hfault, hlength, hclosed, htag, hrising, hkeys, hmemories⟩

/-! ## Instructions and steps -/

/-- Every instruction keeps the invariant. -/
theorem State.Inv.exec {s t : State} {i : Instr} (hs : s.Inv) (h : exec i s = .next t) : t.Inv := by
  cases exec_cases h with
  | modeWr => exact (hs.writeMode ..).setRes _
  | mpalWr => exact (hs.writeMpal ..).setRes _
  | cpalWr => exact (hs.writeCpal ..).setRes _
  | pbBegin => exact (hs.beginPb _).setRes _
  | pbWrite => exact (hs.writePb ..).setRes _
  | pbDiscard => exact hs.discardPb.setRes _
  | scRender => exact (hs.renderSprites ..).setRes _
  | fbWrite => exact (hs.writeFb ..).setRes _
  | answer _ ht => exact hs.of_sameButAnswer ht
  | illegalOp | badBank => exact hs.raiseFault (by decide)

/-- Every command word's step keeps the invariant, in each case of R264. -/
theorem State.Inv.command {s t : State} {w : Word} {rest : List Input} (hs : s.Inv) (hi : s.inbox = .command w :: rest)
    (h : step s = .next t) : t.Inv := by
  have hs' : { s with inbox := rest }.Inv := hs
  rcases command_cases hi h with ⟨-, hx⟩ | ⟨-, -, rfl⟩ | ⟨-, -, -, rfl⟩ | ⟨-, -, i, -, hx⟩
  · exact hs'.exec hx
  · exact hs'.setRes _
  · exact hs'.raiseFault (by decide)
  · exact hs'.exec hx

/-- Settles O19: a step keeps the state or takes an input, a command or one of the other three. -/
theorem stepKeepsInvariant : Obligations.StepKeepsInvariant := by
  intro s t hs h
  rcases step_next_cases h with ⟨-, rfl⟩ | ⟨e, rest, hi, he⟩
  · exact hs
  have hs' : { s with inbox := rest }.Inv := hs
  cases e with
  | command w => exact hs.command hi h
  | reset => cases he; exact hs'.resetBlock
  | oamWrite off v => cases he; exact hs'.writeOam off v
  | vramWrite bank a v => cases he; exact hs'.writeVram bank a v

end Sys2Proof.Machine
end

section
/-! PROOFS of the family 60_exceptions.md, the faults: which fault a command raises (R263, R266), the halt and the way out of it
(R264, R265), and the step that takes no input (R276, R302). -/

namespace Sys2Proof.Machine

/-! ## Which fault -/

/-- The fault an instruction raises, if any, told from the instruction and MODE.CGB alone (R263): reserved operand values first,
then the bank (R266). -/
def faultOfInstr (cgb : Bool) (i : Instr) : Option FaultCode :=
  if i.wellFormed = false then some .illegalOp
  else
    match i with
    | .tileFetch _ bank _ => if bank && !cgb then some .badBank else none
    | _ => none

/-- A well-formed instruction other than TILE.FETCH keeps FAULT (R106, R143). -/
theorem fault_of_exec_wellFormed {i : Instr} {s t : State} (hwf : i.wellFormed = true) (hi : i.opcode ≠ .tileFetch)
    (h : exec i s = .next t) : t.fault = s.fault := by
  rcases answers_of_wellFormed hwf h with hanswer | rfl
  · exact hanswer.fault
  · by_contra hne
    have hf := fault_eq_zero_of_raiseFault_ne hne
    obtain ⟨-, -, -, -, -, -, -, hlisted, -⟩ := onlyTheListedOperationsWriteEachElement s _ i h
    obtain ⟨-, hfaulted⟩ := queriesChangeNoState s _ i h (by rcases hlisted hne with ho | ho | ho <;> simp [ho])
    obtain ⟨-, -, -, hone | ⟨-, hfetch⟩⟩ := hfaulted hne
    · simp [hf, FaultCode.bits] at hone
    · exact hi hfetch

/-- FAULT after an instruction (R263). -/
theorem fault_of_exec_eq {i : Instr} {s t : State} (h : exec i s = .next t) :
    t.fault = (faultOfInstr s.cgb i).elim s.fault fun c => (raiseFault c s).fault := by
  cases hwf : i.wellFormed with
  | false =>
    rw [exec_of_not_wellFormed hwf] at h
    cases h
    simp [faultOfInstr, hwf]
  | true =>
    cases i with
    | tileFetch tile bank off =>
      have heven : off.toNat % 2 = 0 := by
        by_contra hodd
        have hill : tileFetchLegal off = false := tileFetchLegal_eq_false.2 (Nat.mod_two_ne_zero.1 hodd)
        exact Bool.false_ne_true (hill.symm.trans hwf)
      by_cases hbank : bank = true → s.cgb = true
      · rw [exec_tileFetch_of_bank hbank tile heven] at h
        cases h
        have hgood : (bank && !s.cgb) = false := by simpa using hbank
        simp [faultOfInstr, hwf, hgood]
      · obtain ⟨rfl, hcgb⟩ : bank = true ∧ s.cgb = false := by simpa using hbank
        rw [exec_tileFetch_of_badBank hcgb tile heven] at h
        cases h
        simp [faultOfInstr, hwf, hcgb]
    | _ =>
      rw [fault_of_exec_wellFormed hwf (by simp [Instr.opcode]) h]
      simp [faultOfInstr, hwf]

/-- FAULT after a command, told from the command word, MODE.CGB and FAULT before it (R263): while halted it stays (R264). -/
def faultAfterCommand (w : Word) (cgb : Bool) (fault : BitVec 4) : BitVec 4 :=
  if fault = 0#4 then
    match decode w with
    | .ok i => (faultOfInstr cgb i).elim 0#4 FaultCode.bits
    | .error _ => FaultCode.illegalOp.bits
  else fault

theorem faultAfterCommand_of_halted (w : Word) (cgb : Bool) {fault : BitVec 4} (h : fault ≠ 0#4) :
    faultAfterCommand w cgb fault = fault :=
  if_neg h

/-- The step's FAULT is `faultAfterCommand`'s, whatever else the state holds (R263). -/
theorem fault_of_command {s t : State} {w : Word} {rest : List Input} (hi : s.inbox = .command w :: rest) (h : step s = .next t) :
    t.fault = faultAfterCommand w s.cgb s.fault := by
  by_cases hf : s.fault = 0#4
  · have hw := step_wf h
    cases hd : decode w with
    | error r =>
      rw [step_of_decode_error hw hi hf hd] at h
      cases h
      simp [faultAfterCommand, hf, hd, Spec.faulted, FaultCode.bits]
    | ok i =>
      rw [stepRunsDecodedCommand s w rest i hw hi hd (.inl hf)] at h
      rw [fault_of_exec_eq h]
      simp [faultAfterCommand, hf, hd, State.cgb]
  · rw [faultAfterCommand_of_halted w s.cgb hf]
    rcases command_cases hi h with ⟨-, hx⟩ | ⟨-, -, rfl⟩ | ⟨-, h0, -⟩ | ⟨-, h0, -⟩
    · exact (answers_statusRd hx).fault
    · rfl
    · exact absurd h0 hf
    · exact absurd h0 hf

/-- A fault that changes FAULT was raised in a block that is not halted, and changes nothing else but the result word (R263). -/
theorem raiseFault_precise {c : FaultCode} {s : State} (hne : (raiseFault c s).fault ≠ s.fault) :
    s.fault = 0#4 ∧ raiseFault c s = Spec.faulted s (raiseFault c s).fault := by
  have hf := fault_eq_zero_of_raiseFault_ne hne
  rw [raiseFault_of_not_halted c hf]
  exact ⟨hf, rfl⟩

/-- Settles O10: a fault raised in a block that is not halted changes FAULT alone, and FAULT after the command is a function of
the word, MODE.CGB and FAULT before. -/
theorem faultsArePrecise : Obligations.FaultsArePrecise := by
  intro s t w rest hi h
  refine ⟨fun hne => ?_, fun s' t' rest' hi' h' hcgb hfault => ?_⟩
  · rcases command_cases hi h with ⟨-, hx⟩ | ⟨-, -, rfl⟩ | ⟨-, -, -, rfl⟩ | ⟨-, -, i, -, hx⟩
    · exact absurd (answers_statusRd hx).fault hne
    · exact absurd rfl hne
    · exact raiseFault_precise hne
    · rcases answers_or_faults hx with hanswer | ⟨c, rfl⟩
      · exact absurd hanswer.fault hne
      · exact raiseFault_precise hne
  · rw [fault_of_command hi h, fault_of_command hi' h', hfault, State.cgb, hcgb, State.cgb]

/-! ## The halt -/

/-- A halted block has no effect for any word but STATUS.RD's (R264). -/
theorem step_of_halted {s : State} {w : Word} {rest : List Input} (hw : s.params.wf = true) (hi : s.inbox = .command w :: rest)
    (hf : s.fault ≠ 0#4) (hword : w ≠ 0x1C000000#32) : step s = .next (haltedResult { s with inbox := rest }) := by
  have hhalted : { s with inbox := rest }.halted = true := by simpa [State.halted] using hf
  rw [step_command hw hi, runCommand, if_neg hword, if_pos hhalted]

/-- With legal parameters every command completes (R111). -/
theorem command_completes {s : State} {w : Word} {rest : List Input} (hw : s.params.wf = true) (hi : s.inbox = .command w :: rest) :
    ∃ t, step s = .next t := by
  rw [step_command hw hi, runCommand]
  split
  · exact exec_completes _ _
  · split
    · exact ⟨_, rfl⟩
    · split
      · exact ⟨_, rfl⟩
      · exact exec_completes _ _

/-- Settles O9: one clause for each test of R264, in their order. -/
theorem haltBlocksAllButStatusRead : Obligations.HaltBlocksAllButStatusRead := by
  intro s w rest hw hi
  refine ⟨fun hword => ?_, fun hword hf => step_of_halted hw hi hf hword, fun _ hf => ?_, fun hf => ?_⟩
  · exact stepRunsDecodedCommand s w rest _ hw hi (decode_eq_statusRd.2 hword) (.inr rfl)
  · cases hd : decode w with
    | ok i => exact stepRunsDecodedCommand s w rest i hw hi hd (.inl hf)
    | error r => exact step_of_decode_error hw hi hf hd
  · obtain ⟨t, ht⟩ := command_completes hw hi
    exact ⟨t, ht, (fault_of_command hi ht).trans (faultAfterCommand_of_halted w s.cgb hf)⟩

/-- Settles O11: a command met while halted keeps FAULT, and a memory write never changes it; reset leaves the block idle. -/
theorem firstCauseIsKeptUntilReset : Obligations.FirstCauseIsKeptUntilReset := by
  intro s t h
  rcases step_next_cases h with ⟨hi, rfl⟩ | ⟨e, rest, hi, he⟩
  · simp [hi]
  cases e with
  | command w => exact ⟨fun hf _ => (fault_of_command hi h).trans (faultAfterCommand_of_halted w s.cgb hf), by simp [hi]⟩
  | reset => cases he; exact ⟨by simp [hi], fun _ => (resetBlock_idle _).fault⟩
  | oamWrite => cases he; exact ⟨fun _ _ => rfl, by simp [hi]⟩
  | vramWrite => cases he; exact ⟨fun _ _ => writeVram_fault .., by simp [hi]⟩

/-! ## No input, no machine -/

/-- Settles O17: the bounds of the statement are the parameters' test. -/
theorem stepWithoutInputOrMachine : Obligations.StepWithoutInputOrMachine := by
  intro s
  rw [← wf_iff]
  refine ⟨fun hw hi => ?_, fun hw => if_neg hw⟩
  rw [step, if_pos hw, takeNextInput, hi]

end Sys2Proof.Machine
end

section
/-! PROOFS of the family 60_exceptions.md, the agents: what an input within its agent's column of R275 can write. -/

namespace Sys2Proof.Machine

/-! ## What an operation writes -/

/-- Four operations alone draw free values (log 5). -/
theorem freeCount_of_exec {i : Instr} {s t : State} (hi : i.opcode ∉ [.statusRd, .pbRead, .fbRead, .scRender])
    (h : exec i s = .next t) : t.freeCount = s.freeCount := by
  cases i with
  | statusRd | pbRead | fbRead | scRender => simp [Instr.opcode] at hi
  | palResolve | tileRowsel | tileFetch =>
    simp only [exec, execPalResolve, execTileRowsel, execTileFetch] at h
    split_ifs at h <;> cases h <;> rfl
  | pbWrite => cases h; exact writePb_freeCount ..
  | fbWrite => cases h; exact writeFb_freeCount ..
  | modeWr | mpalWr | cpalWr | palSplit | tilePixel | pbBegin | pbDiscard => cases h; rfl

/-- FB.WRITE changes the frame buffer and the result word at most (R220). -/
theorem writeFb_setRes_eq (s : State) (x y : Byte) (ch : BitVec 2) (v : Byte) :
    (s.writeFb x y ch v).setRes 0#32 = { s with fb := (s.writeFb x y ch v).fb, res := 0#32 } :=
  congrArg (·.setRes 0#32) (writeFb_eq_set_fb s x y ch v)

/-- Settles O57: FB.WRITE writes the frame buffer, and each of the others answers or faults. -/
theorem compositorCallsWriteOnlyTheFrame : Obligations.CompositorCallsWriteOnlyTheFrame := by
  intro s t i hcall h
  cases exec_cases h with
  | modeWr | mpalWr | cpalWr | pbBegin | pbWrite | pbDiscard | scRender => cases hcall
  | fbWrite => rw [writeFb_setRes_eq]
  | answer _ ht => rw [ht]
  | illegalOp | badBank => rfl

/-- What the background renderer may issue draws no free value. -/
theorem opcode_of_rendererMayIssue {i : Instr} (h : rendererMayIssue i = true) :
    i.opcode ∉ [.statusRd, .pbRead, .fbRead, .scRender] := by
  cases i with
  | statusRd | pbRead | fbRead | scRender => cases h
  | _ => simp [Instr.opcode]

/-- An operation the background renderer may issue writes entries, the frame buffer, FAULT and the result word at most. -/
theorem exec_of_rendererMayIssue {i : Instr} {s t : State} (hissue : rendererMayIssue i = true) (h : exec i s = .next t) :
    t = { s with pb := t.pb, fb := t.fb, fault := t.fault, res := t.res } := by
  have hdraw : t.freeCount = s.freeCount := freeCount_of_exec (opcode_of_rendererMayIssue hissue) h
  cases exec_cases h with
  | modeWr | mpalWr | cpalWr | pbBegin | pbDiscard | scRender => cases hissue
  | pbWrite => rw [writePb_eq_set_pb]; rfl
  | fbWrite => rw [writeFb_setRes_eq]
  | answer _ ht => rw [ht, hdraw]
  | illegalOp | badBank => rfl

/-- An operation the display layer may issue writes the frame buffer and the result word at most, and draws free values. -/
theorem exec_of_displayMayIssue {i : Instr} {s t : State} (hissue : displayMayIssue i = true) (h : exec i s = .next t) :
    t = { s with fb := t.fb, res := t.res, freeCount := t.freeCount } := by
  cases exec_cases h with
  | modeWr | mpalWr | cpalWr | pbBegin | pbWrite | pbDiscard | scRender | badBank => cases hissue
  | fbWrite => rw [writeFb_setRes_eq]
  | answer _ ht => rw [ht]
  | illegalOp hi =>
    cases i with
    | statusRd | fbRead | fbWrite => simp [Instr.opcode] at hi
    | _ => cases hissue

/-! ## Live entries -/

/-- Every live entry of `t` stood in `s`. -/
def NoNewLive (s t : State) : Prop :=
  ∀ (x : Nat) (p : PbEntry), t.pb[x]? = some p → p.valid = true → s.pb[x]? = some p

theorem NoNewLive.of_pb_eq {s t : State} (h : t.pb = s.pb) : NoNewLive s t :=
  fun _ _ hp _ => h ▸ hp

theorem NoNewLive.of_invalid {s t : State} (h : ∀ e ∈ t.pb, e.valid = false) : NoNewLive s t :=
  fun _ _ hp hvalid => absurd ((h _ (List.mem_of_getElem? hp)).symm.trans hvalid) Bool.false_ne_true

/-- PB.WRITE alone makes an entry (R162). -/
theorem noNewLive_of_exec {i : Instr} {s t : State} (hi : i.opcode ≠ .pbWrite) (h : exec i s = .next t) : NoNewLive s t := by
  cases exec_cases h with
  | pbWrite => exact absurd rfl hi
  | pbBegin | pbDiscard => exact .of_invalid fun _ => valid_of_mem_invalidEntries
  | scRender ly tall =>
    obtain ⟨-, -, -, -, -, -, hpb, -⟩ := (SameButFrame.renderSprites s ly tall).fields
    exact .of_pb_eq ((setRes_pb ..).trans hpb)
  | fbWrite => exact .of_pb_eq (writeFb_pb ..)
  | answer _ ht => exact .of_pb_eq (by rw [ht])
  | modeWr | mpalWr | cpalWr | illegalOp | badBank => exact .of_pb_eq rfl

/-! ## The agents -/

/-- What the step on an input its agent may deliver can do, from the state with the input taken: a command within the agent's
column meets a halted block or runs, reset is the reset line's, and memory writes are the memory subsystem's (R275). -/
inductive DeliveredCase (s : State) : Agent → State → Prop
  | halted {a : Agent} {i : Instr} (hissue : a.mayIssue i = true) : DeliveredCase s a (haltedResult s)
  | command {a : Agent} {i : Instr} {t : State} (hissue : a.mayIssue i = true) (h : exec i s = .next t) : DeliveredCase s a t
  | reset : DeliveredCase s .resetLine (resetBlock s)
  | memory {t : State} (ht : t = { s with oam := t.oam, vram0 := t.vram0, vram1 := t.vram1 }) :
    DeliveredCase s .memorySubsystem t

theorem delivered_cases {a : Agent} {s t : State} {e : Input} {rest : List Input} (hi : s.inbox = e :: rest)
    (hm : a.mayDeliver e = true) (h : step s = .next t) : DeliveredCase { s with inbox := rest } a t := by
  have htake := (step_input (step_wf h) hi).symm.trans h
  cases e with
  | command w =>
    obtain ⟨i, -, hissue, rfl | ⟨-, hx⟩⟩ := delivered_command_cases hi hm h
    · exact .halted hissue
    · exact .command hissue hx
  | reset =>
    obtain rfl : a = .resetLine := eq_of_beq hm
    cases htake
    exact .reset
  | oamWrite off v =>
    obtain rfl : a = .memorySubsystem := eq_of_beq hm
    cases htake
    exact .memory rfl
  | vramWrite bank ad v =>
    obtain rfl : a = .memorySubsystem := eq_of_beq hm
    cases htake
    exact .memory (by rw [writeVram_eq_set_banks])

namespace DeliveredCase

variable {s t : State} {a : Agent}

/-- The Sprite Compositor issues nothing at the ports. -/
theorem ne_spriteCompositor (h : DeliveredCase s a t) : a ≠ .spriteCompositor := by
  rintro rfl
  cases h with
  | halted hissue | command hissue => cases hissue

/-- The memory subsystem alone writes OAM and VRAM (R31). -/
theorem memories_eq (h : DeliveredCase s a t) (ha : a ≠ .memorySubsystem) :
    t.oam = s.oam ∧ t.vram0 = s.vram0 ∧ t.vram1 = s.vram1 := by
  cases h with
  | halted | reset => exact ⟨rfl, rfl, rfl⟩
  | command _ hx =>
    obtain ⟨-, -, -, -, -, -, -, -, hoam, hvram0, hvram1, -⟩ := onlyTheListedOperationsWriteEachElement s t _ hx
    exact ⟨hoam, hvram0, hvram1⟩
  | memory => exact absurd rfl ha

theorem memorySubsystem_eq (h : DeliveredCase s .memorySubsystem t) :
    t = { s with oam := t.oam, vram0 := t.vram0, vram1 := t.vram1 } := by
  cases h with
  | halted hissue | command hissue => cases hissue
  | memory ht => exact ht

theorem backgroundRenderer_eq (h : DeliveredCase s .backgroundRenderer t) :
    t = { s with pb := t.pb, fb := t.fb, fault := t.fault, res := t.res } := by
  cases h with
  | halted => rfl
  | command hissue hx => exact exec_of_rendererMayIssue hissue hx

theorem displayLayer_eq (h : DeliveredCase s .displayLayer t) :
    t = { s with fb := t.fb, res := t.res, freeCount := t.freeCount } := by
  cases h with
  | halted => rfl
  | command hissue hx => exact exec_of_displayMayIssue hissue hx

/-- The background renderer alone may issue PB.WRITE (R275). -/
theorem noNewLive (h : DeliveredCase s a t) (ha : a ≠ .backgroundRenderer) : NoNewLive s t := by
  cases h with
  | halted => exact .of_pb_eq rfl
  | @command _ i _ hissue hx =>
    refine noNewLive_of_exec (fun hop => ?_) hx
    cases i with
    | pbWrite =>
      cases a with
      | backgroundRenderer => exact ha rfl
      | _ => cases hissue
    | _ => cases hop
  | reset => exact .of_invalid (resetBlock_idle s).pb_invalid
  | memory ht => exact .of_pb_eq (by rw [ht])

end DeliveredCase

/-- Settles O56: one clause for each agent, and two that tell one agent from all others. -/
theorem agentsWriteOnlyTheirElements : Obligations.AgentsWriteOnlyTheirElements := by
  intro s t a e rest hi hm h
  have hcase := delivered_cases hi hm h
  refine ⟨hcase.ne_spriteCompositor, hcase.memories_eq, ?_, ?_, ?_, hcase.noNewLive⟩
  · rintro rfl
    exact hcase.memorySubsystem_eq
  · rintro rfl
    exact hcase.backgroundRenderer_eq
  · rintro rfl
    exact hcase.displayLayer_eq

end Sys2Proof.Machine
end

section
/-! PROOFS of the family 70_reset_and_hazards.md: what reset keeps and forgets (R290), the order of scanlines under the override
(R300), and what the caller contract makes of a background pass and of the SC.RENDER that ends it (R292, R296, R297, R299, R303). -/

namespace Sys2Proof.Machine

/-! ## Reset -/

/-- Reset reads the parameters, the memories, the ports and the count of free values, and no register of the block (R290). -/
theorem resetBlock_congr {s s' : State} (hparams : s'.params = s.params) (hoam : s'.oam = s.oam) (hvram0 : s'.vram0 = s.vram0)
    (hvram1 : s'.vram1 = s.vram1) (hres : s'.res = s.res) (hcount : s'.freeCount = s.freeCount) (hinbox : s'.inbox = s.inbox) :
    resetBlock s' = resetBlock s := by
  rw [resetBlock, resetBlock, hparams, hoam, hvram0, hvram1, hres, hcount, hinbox]

/-- Settles O14: both steps are resets, and reset sees no difference between the two states. -/
theorem resetInputKeepsMemoriesAndForgetsRegisters : Obligations.ResetInputKeepsMemoriesAndForgetsRegisters := by
  intro s rest hw hi
  refine ⟨⟨_, step_reset hw hi, rfl, rfl, rfl, fun _ _ _ => rfl, rfl, rfl, rfl, rfl, rfl⟩, ?_⟩
  intro s' hparams hoam hvram0 hvram1 hres hcount hinbox
  rw [step_reset hw hi, step_reset (hparams ▸ hw) (hinbox.trans hi)]
  exact congrArg _ (resetBlock_congr hparams hoam hvram0 hvram1 hres hcount rfl)

/-! ## The order of scanlines -/

/-- Under R297's premise a pass over one row leaves that row alike from two states that differ at most in the other rows. -/
theorem fbAt_renderSprites_congr {s t : State} (ht : SameButFrame s t) {ly x : Byte} {ch : BitVec 2} (h : s.spriteReady ly)
    (hrow : t.fbAt x ly ch = s.fbAt x ly ch) (tall : Bool) :
    (t.renderSprites ly tall).fbAt x ly ch = (s.renderSprites ly tall).fbAt x ly ch := by
  by_cases hframe : Spec.onFrame s x ly ch
  · have hready : ∀ p ∈ s.linePixels ly tall, x = p.x → Spec.entryReady s ly x :=
      fun _ _ _ => entryReady_of_spriteReady h hframe.1
    rw [fbAt_renderSprites ht hframe hready, fbAt_renderSprites (.refl s) hframe hready, hrow]
  · have hframe' : ¬ Spec.onFrame t x ly ch := by rwa [Spec.onFrame, ht.fields.1]
    rw [fbAt_renderSprites_of_off (.inr hframe), fbAt_renderSprites_of_off (.inr hframe'), hrow]

/-- After the passes over two rows the second one's row is as its pass alone leaves it, and the rest as the first pass does. -/
theorem fbAt_renderSprites_two_rows {s : State} {ly ly' : Byte} (hne : ly ≠ ly') (h : s.spriteReady ly') (tall : Bool)
    (x y : Byte) (ch : BitVec 2) :
    ((s.renderSprites ly tall).renderSprites ly' tall).fbAt x y ch =
      if y = ly' then (s.renderSprites ly' tall).fbAt x y ch else (s.renderSprites ly tall).fbAt x y ch := by
  split
  · subst y
    exact fbAt_renderSprites_congr (.renderSprites s ly tall) h (fbAt_renderSprites_other s tall x ch hne.symm) tall
  · exact fbAt_renderSprites_other _ tall x ch ‹_›

/-- Settles O55: the override meets R297's premise on both rows, and a pass sees of the other one only its result word and other
rows. -/
theorem scanlinesRenderInAnyOrder : Obligations.ScanlinesRenderInAnyOrder := by
  intro s ly ly' tall hne hcgb hbgpri
  have hready (row : Byte) : s.spriteReady row := .inl (override_eq_true.2 ⟨hcgb, hbgpri⟩)
  refine ⟨_, _, _, _, exec_scRender s ly tall, exec_scRender _ ly' tall, exec_scRender s ly' tall, exec_scRender _ ly tall,
    fun x y ch => ?_⟩
  rw [(setRes_unseen _ ly' tall 0#32).renderSprites, (setRes_unseen _ ly tall 0#32).renderSprites]
  simp only [fbAt_setRes, fbAt_renderSprites_two_rows hne (hready ly'), fbAt_renderSprites_two_rows hne.symm (hready ly)]
  by_cases hy : y = ly
  · rw [if_pos hy, if_neg (hy ▸ hne)]
  · rw [if_neg hy, fbAt_renderSprites_other s tall x ch hy]
    split
    · rfl
    · rw [fbAt_renderSprites_other s tall x ch ‹_›]

/-! ## The background pass -/

/-- In a background pass MODE.WR, MPAL.WR and CPAL.WR break the contract (R299). -/
theorem command_configuration_eq_none {k : Contract} (hp : k.phase.inBackground = true) (a : Agent) (s : State) {i : Instr}
    (hi : i.opcode ∈ [.modeWr, .mpalWr, .cpalWr]) : k.command a s i = none := by
  have hbarred : k.mayConfigure = false := mayConfigure_eq_false.2 hp
  cases i with
  | modeWr | mpalWr | cpalWr => simp [Contract.command, hbarred]
  | _ => simp [Instr.opcode] at hi

/-- An instruction that writes neither MODE nor a palette leaves all that the sprite pass reads of them and of the memories (R34). -/
theorem configuration_of_exec {i : Instr} {s t : State} (hi : i.opcode ∉ [.modeWr, .mpalWr, .cpalWr]) (h : exec i s = .next t) :
    t.mode = s.mode ∧ t.mpal = s.mpal ∧ t.cpal = s.cpal ∧ t.oam = s.oam ∧ t.vram0 = s.vram0 ∧ t.vram1 = s.vram1 := by
  obtain ⟨hmode, hmpal, hcpal, -, -, -, -, -, hoam, hvram0, hvram1, -⟩ := onlyTheListedOperationsWriteEachElement s t i h
  simp only [List.mem_cons, List.not_mem_nil, or_false, not_or] at hi
  obtain ⟨hnmode, hnmpal, hncpal⟩ := hi
  exact ⟨not_imp_comm.1 hmode hnmode, not_imp_comm.1 hmpal hnmpal, not_imp_comm.1 hcpal hncpal, hoam, hvram0, hvram1⟩

/-- Settles O58: reset ends the pass, the memory subsystem's row bars its writes, and the contract bars the configuration
commands. -/
theorem backgroundPassFreezesWhatSpritesRead : Obligations.BackgroundPassFreezesWhatSpritesRead := by
  intro k k' a s t e rest hi hp hp' hk h
  obtain ⟨hm, hbar, hq⟩ := input_eq_some hk
  cases e with
  | reset =>
    cases hq
    cases hp'
  | oamWrite | vramWrite =>
    obtain rfl : a = .memorySubsystem := eq_of_beq hm
    exact absurd (hp.symm.trans hbar) (by decide)
  | command w =>
    obtain ⟨i, hd, -, rfl | ⟨hh, ht⟩⟩ := delivered_command_cases hi hm h
    · exact ⟨rfl, rfl, rfl, rfl, rfl, rfl⟩
    refine configuration_of_exec (s := { s with inbox := rest }) (fun hop => ?_) ht
    rcases hh with hh | rfl
    · rw [sequence_command k a hh hd, command_configuration_eq_none hp a s hop] at hq
      cases hq
    · simp [Instr.opcode] at hop

/-! ## The SC.RENDER that keeps the contract -/

section
variable {k k' : Contract} {a : Agent} {s : State} {w : Word} {rest : List Input} {ly : Byte} {tall : Bool}

/-- An SC.RENDER that keeps the contract is the scanline driver's (R275), meets all the contract asks of it, and runs. -/
theorem contract_scRender (hw : s.params.wf = true) (hi : s.inbox = .command w :: rest) (hf : s.fault = 0#4)
    (hd : decode w = .ok (.scRender ly tall)) (hk : k.input a s (.command w) = some k') :
    a = .scanlineDriver ∧ k.mayRender { s with inbox := rest } ly tall ∧ k' = { k with phase := .composed ly } ∧
      step s = exec (.scRender ly tall) { s with inbox := rest } := by
  obtain ⟨hm, -, hq⟩ := input_eq_some hk
  have hissue : a.mayIssue (.scRender ly tall) = true := by simpa only [Agent.mayDeliver, hd] using hm
  rw [sequence_command k a (by simp [State.halted, hf]) hd] at hq
  obtain ⟨hrender, rfl⟩ := command_scRender_eq_some.1 hq
  refine ⟨?_, hrender, rfl, ?_⟩
  · cases a with
    | scanlineDriver => rfl
    | _ => cases hissue
  · exact stepRunsDecodedCommand s w rest _ hw hi hd (.inl hf)

/-- `s` with other memories. -/
def State.setMemories (oam' vram0' vram1' : Memory) (s : State) : State :=
  { s with oam := oam', vram0 := vram0', vram1 := vram1' }

/-- A sprite's pixels are read from OAM and, if it is on the scanline, from the two bytes of its tile row (R182, R188). -/
theorem spritePixels_setMemories {oam' vram0' vram1' : Memory} {read : List (Bool × BitVec 16)} {i : Nat} (hi : i < 40)
    (hoam : ∀ n, n < 160 → memRead oam' n = s.oamByte n)
    (hvram : ∀ p ∈ read, (s.setMemories oam' vram0' vram1').vramByte p.1 p.2 = s.vramByte p.1 p.2)
    (hrow : s.spriteOnLine ly tall i = true →
      s.spriteRowAt ly tall i ∈ read ∧ ((s.spriteRowAt ly tall i).1, (s.spriteRowAt ly tall i).2 + 1#16) ∈ read) :
    (s.setMemories oam' vram0' vram1').spritePixels ly tall i = s.spritePixels ly tall i := by
  have hbyte (n : Nat) (hn : n < 4) : (s.setMemories oam' vram0' vram1').oamByte (4 * i + n) = s.oamByte (4 * i + n) :=
    hoam _ (by omega)
  have hy : (s.setMemories oam' vram0' vram1').oamByte (4 * i) = s.oamByte (4 * i) := hbyte 0 (by omega)
  have hx := hbyte 1 (by omega)
  have htile := hbyte 2 (by omega)
  have hattr := hbyte 3 (by omega)
  have hline : (s.setMemories oam' vram0' vram1').spriteOnLine ly tall i = s.spriteOnLine ly tall i := by
    rw [State.spriteOnLine, hy, State.spriteOnLine]
  have hrowAt : (s.setMemories oam' vram0' vram1').spriteRowAt ly tall i = s.spriteRowAt ly tall i := by
    rw [State.spriteRowAt, hy, htile, hattr]
    rfl
  rw [State.spritePixels, State.spritePixels, hline]
  split
  · obtain ⟨hfirst, hsecond⟩ := hrow ‹_›
    have hindex (c : BitVec 3) :
        (s.setMemories oam' vram0' vram1').columnIndex ly tall i c = s.columnIndex ly tall i c := by
      simp only [State.columnIndex, hrowAt, hvram _ hfirst, hvram _ hsecond, hattr]
    congr 1
    funext c
    rw [State.columnPixel, State.columnPixel, hindex, hx, hattr]
  · rfl

/-- Memories that agree on the contract's record are unseen by an SC.RENDER that keeps the contract (R292). -/
theorem setMemories_unseen {oam' vram0' vram1' : Memory} (h : k.memoryReady s ly tall = true)
    (hoam : ∀ off ∈ k.oamWritten, memRead oam' off.val = s.oamByte off.val)
    (hvram : ∀ p ∈ k.vramWritten, (s.setMemories oam' vram0' vram1').vramByte p.1 p.2 = s.vramByte p.1 p.2) :
    s.Unseen ly tall (.setMemories oam' vram0' vram1') := by
  obtain ⟨hall, hrows⟩ := memoryReady_eq_true.1 h
  refine ⟨List.flatMap_congr fun i hi => ?_,
    fun _ attr _ _ => pixelShown_commute (.setMemories oam' vram0' vram1') rfl rfl rfl rfl attr,
    fun _ _ _ _ => rfl, fun _ x => writeFb_commute (.setMemories oam' vram0' vram1') rfl rfl (fun _ => rfl) x ly⟩
  have hi := mem_spriteOrder.1 hi
  exact spritePixels_setMemories hi (fun n hn => hoam ⟨n, hn⟩ (hall _)) hvram (hrows i hi)

end

/-- Settles O59: the contract meets R297's premise on every column, so the picture has no premise left. -/
theorem contractRenderPaintsThePicture : Obligations.ContractRenderPaintsThePicture := by
  intro k k' a s w rest ly tall hw hi hf hd hk
  obtain ⟨ha, ⟨hphase, -, -, -, hready⟩, rfl, hstep⟩ := contract_scRender hw hi hf hd hk
  obtain ⟨t, ht, hpaint⟩ := renderPaintsLowestIndexedShownSprite { s with inbox := rest } ly tall
  refine ⟨ha, hphase, rfl, t, hstep.trans ht, fun x ch hframe => ?_⟩
  exact hpaint x ch hframe fun _ => entryReady_of_spriteReady hready hframe.1

/-- Settles O60: all that the sprite pass reads is in the record, so it does not see the other bytes. -/
theorem contractRenderReadsOnlyWrittenMemory : Obligations.ContractRenderReadsOnlyWrittenMemory := by
  intro k k' a s w rest ly tall oam' vram0' vram1' hw hi hf hd hk hoam hvram
  obtain ⟨-, ⟨-, -, -, hmemory, -⟩, -, hstep⟩ := contract_scRender hw hi hf hd hk
  have hunseen := setMemories_unseen hmemory hoam hvram
  obtain ⟨t, ht, hu⟩ := hunseen.exec_scRender fun _ _ => rfl
  refine ⟨t, hstep.trans ht, ?_⟩
  exact (stepRunsDecodedCommand (s.setMemories oam' vram0' vram1') w rest _ hw hi hd (.inl hf)).trans hu

end Sys2Proof.Machine
end
